-- ==== Sys2Proof/Word.lean ====
section
/-! DEFINITION. The plain words of the JV2432 model: bytes, 32-bit words, port numbers, destination
identifiers, classes, small tables indexed by them, and sets of destinations. -/

namespace Sys2Proof

/-- One byte on a link. -/
abbrev Byte := BitVec 8

/-- One 32-bit word of a command, response or notice frame (section 1.7). -/
abbrev Word := BitVec 32

/-- A link port, 0..23 (section 4.1). -/
abbrev PortId := Fin 24

/-- A destination identifier, 0..31 (section 4.1). -/
abbrev Did := Fin 32

/-- A multicast group, 0..511 (section 4.1). -/
abbrev GroupId := Fin 512

/-- The traffic classes 0..3. Class 0 is the credited class, 1..3 are the granted classes. -/
inductive Cls where
  | c0 | c1 | c2 | c3
  deriving DecidableEq, Repr

/-- The granted classes 1..3. -/
inductive GClass where
  | c1 | c2 | c3
  deriving DecidableEq, Repr

/-- A granted class as one of the four classes. -/
def GClass.cls : GClass → Cls
  | .c1 => .c1
  | .c2 => .c2
  | .c3 => .c3

/-- The granted class a class is, none for class 0. -/
def Cls.granted? : Cls → Option GClass
  | .c0 => none
  | .c1 => some .c1
  | .c2 => some .c2
  | .c3 => some .c3

/-- The two-bit code of a class in a header. -/
def Cls.code : Cls → BitVec 2
  | .c0 => 0
  | .c1 => 1
  | .c2 => 2
  | .c3 => 3

/-- The class a two-bit field names. -/
def Cls.ofCode (b : BitVec 2) : Cls :=
  if b = 0 then .c0 else if b = 1 then .c1 else if b = 2 then .c2 else .c3

/-- The granted classes in ascending order. -/
def GClass.all : List GClass := [.c1, .c2, .c3]

/-- The four classes in ascending order. -/
def Cls.all : List Cls := [.c0, .c1, .c2, .c3]

/-- One value for each granted class. -/
structure PerG (α : Type) where
  c1 : α
  c2 : α
  c3 : α
  deriving DecidableEq, Repr

/-- One value for each of the four classes. -/
structure PerClass (α : Type) where
  c0 : α
  c1 : α
  c2 : α
  c3 : α
  deriving DecidableEq, Repr

def PerG.get {α : Type} (t : PerG α) : GClass → α
  | .c1 => t.c1
  | .c2 => t.c2
  | .c3 => t.c3

def PerG.set {α : Type} (t : PerG α) (c : GClass) (x : α) : PerG α :=
  match c with
  | .c1 => { t with c1 := x }
  | .c2 => { t with c2 := x }
  | .c3 => { t with c3 := x }

/-- The table with the same value in every granted class. -/
def PerG.const {α : Type} (x : α) : PerG α := ⟨x, x, x⟩

/-- Every value replaced by its image. -/
def PerG.map {α β : Type} (f : GClass → α → β) (t : PerG α) : PerG β :=
  ⟨f .c1 t.c1, f .c2 t.c2, f .c3 t.c3⟩

def PerClass.get {α : Type} (t : PerClass α) : Cls → α
  | .c0 => t.c0
  | .c1 => t.c1
  | .c2 => t.c2
  | .c3 => t.c3

def PerClass.set {α : Type} (t : PerClass α) (c : Cls) (x : α) : PerClass α :=
  match c with
  | .c0 => { t with c0 := x }
  | .c1 => { t with c1 := x }
  | .c2 => { t with c2 := x }
  | .c3 => { t with c3 := x }

/-- The table with the same value in every class. -/
def PerClass.const {α : Type} (x : α) : PerClass α := ⟨x, x, x, x⟩

/-- Every value replaced by its image. -/
def PerClass.map {α β : Type} (f : Cls → α → β) (t : PerClass α) : PerClass β :=
  ⟨f .c0 t.c0, f .c1 t.c1, f .c2 t.c2, f .c3 t.c3⟩

/-- A table of `n` entries with every entry replaced by its image. -/
def tabMap {α β : Type} {n : Nat} (f : Fin n → α → β) (v : Vector α n) : Vector β n :=
  Vector.ofFn fun i => f i v[i]

/-- A set of destinations, bit `d` for destination `d`: the coding GROUP-SET gives it (R169). -/
abbrev DidSet := BitVec 32

/-- Destination `d` is in the set. -/
def DidSet.has (m : DidSet) (d : Did) : Bool := m.getLsbD d.val

/-- The set without destination `d`. -/
def DidSet.without (m : DidSet) (d : Did) : DidSet := m &&& ~~~ (1#32 <<< d.val)

/-- All ports in ascending order. -/
def allPorts : List PortId := List.finRange 24

/-- All destinations in ascending order. -/
def allDids : List Did := List.finRange 32

/-- The members of a set in ascending order. -/
def DidSet.members (m : DidSet) : List Did := allDids.filter fun d => DidSet.has m d

/-- The set of the destinations that satisfy a test. -/
def DidSet.ofPred (f : Did → Bool) : DidSet :=
  allDids.foldl (fun m d => if f d then m ||| (1#32 <<< d.val) else m) 0

/-- The value in `lo..hi` nearest to `n` (section 5, "Clamp"). -/
def clampNat (lo hi n : Nat) : Nat := max lo (min hi n)

/-- The value in `lo..hi` nearest to `n` (section 5, "Clamp"). -/
def clampInt (lo hi n : Int) : Int := max lo (min hi n)

end Sys2Proof
end

