-- ==== Sys2Proof/Syntax.lean ====
section
/-! DEFINITION. The commands of the JV2432: one constructor for each row of the table of operations
and events. Each is one whole step of the part. The rows of the command unit carry no operand,
because what they act on is the command at the head of the element's own command queue (R159). -/

namespace Sys2Proof

/-- A payload of 128 bytes, byte 0 first. -/
abbrev Payload := Vector Byte 128

/-- A header of 16 bytes, byte 0 first (section 1.6). -/
abbrev HeaderBytes := Vector Byte 16

/-- A cell as it stands on a link: a 16-byte header and a 128-byte payload (section 1.1). -/
structure RawCell where
  header : HeaderBytes
  payload : Payload
  deriving DecidableEq, Repr

/-- The two ways an elastic buffer slips (R28). -/
inductive SlipKind where
  | overflow
  | underflow
  deriving DecidableEq, Repr

/-- The commands a block takes, one for each row of the opcode table. -/
inductive Instr where
  /-- The reset input is asserted, or power comes on, with the plane straps at `straps` (R41, R181). -/
  | deviceReset (straps : BitVec 3)
  /-- A cell arrives on a port (R5); in ACQUIRING, the next 144 bytes of the received stream (R21). -/
  | ingressCell (port : PortId) (cell : RawCell)
  /-- The elastic buffer of a port overflows or underflows (R28). -/
  | slip (port : PortId) (kind : SlipKind)
  /-- The stuck-line monitor of a port takes received bits up to an assertion (R30). -/
  | stuckLineAssert (port : PortId) (bits : List Bool)
  /-- The stuck-line monitor of a port takes received bits up to the end of a block (R31). -/
  | stuckBlockEnd (port : PortId) (bits : List Bool)
  /-- A quality measurement of a port completes with a figure 0..63 (R33). -/
  | qualityCompletion (port : PortId) (figure : BitVec 6)
  /-- A slot opens at a port (R113, R20). -/
  | slot (port : PortId)
  /-- The arbiter of a DID and class is judged (R73 to R76). -/
  | grantIssue (did : Did) (cls : GClass)
  /-- The element's time reaches the deadline of a grant record (R83). -/
  | grantExpiry (src : PortId) (did : Did) (cls : GClass)
  /-- A returned marker store serves the owed-marker list (R102). -/
  | owedMarkerService
  /-- The drain condition of a DID is judged for its cutover (R148, R149). -/
  | drainedCutover (did : Did)
  /-- The element's time reaches the move deadline of a DID (R150). -/
  | moveDeadline (did : Did)
  /-- A held response is offered again (R159). -/
  | heldResponseOffer
  | identify
  | portSet
  | portGet
  | classSet
  | poolSet
  | lifetimeSet
  | mapSet
  | mapMove
  | mapGet
  | groupSet
  | groupGet
  | noticeExpect
  | noticeRead
  | countersRead
  | testStart
  | testStop
  | testRead
  | linesSet
  | fabricReset
  | badCommand
  /-- The pattern checker of a port takes received bits up to the match that brings sync (R185). -/
  | checkerSync (port : PortId) (bits : List Bool)
  /-- The pattern checker of a port takes received bits up to the end of a block (R186). -/
  | testBlockEnd (port : PortId) (bits : List Bool)
  /-- The pattern checker of a port takes received bits up to the end of a period (R187). -/
  | timebaseCompletion (port : PortId) (bits : List Bool)
  deriving DecidableEq, Repr

end Sys2Proof
end

