-- ==== Sys2Proof/Config.lean ====
section
/-! DEFINITION. The fixed numbers of the JV2432 (section 6 of the scope file). The manual leaves no
implementation value open that this model needs, so nothing here is an opaque constant. -/

namespace Sys2Proof.Config

/-- Stores of the cell buffer (R44). -/
def bufferStores : Nat := 16384
/-- Size of the class-0 pool (R44, R46). -/
def class0Pool : Nat := 224
/-- Size of the marker reserve (R47). -/
def markerReserve : Nat := 64
/-- Class-0 credits of one port (R155). -/
def portCredits : Nat := 8
/-- Class-0 stores shared by all element cells (R157). -/
def elementAllowance : Nat := 32
/-- Commands the command queue holds (R158). -/
def commandQueueSize : Nat := 16
/-- Entries of a grant outbox (R77). -/
def grantOutboxSize : Nat := 8
/-- Entries of a refusal outbox (R69). -/
def refusalOutboxSize : Nat := 4
/-- Grant slots of an egress header (R12). -/
def grantSlots : Nat := 3
/-- Most credits one egress header returns (R155). -/
def creditsPerHeader : Nat := 3
/-- Smallest shared pool POOL-SET accepts (R61). -/
def minSharedPool : Int := 1024
/-- Good headers in a row that align a receiver (R22). -/
def alignTarget : Nat := 16
/-- Bad headers in a row that lose alignment (R23, R24). -/
def failTarget : Nat := 4
/-- Bytes of a cell (section 1.1). -/
def cellBytes : Nat := 144
/-- Bytes of a header (section 1.1). -/
def headerBytes : Nat := 16
/-- Entries of the elastic buffer, and its centre (section 2.5, R28). -/
def elasticEntries : Nat := 8
def elasticCentre : Nat := 4
/-- Bits of a stuck-line block (R31). -/
def stuckBlockBits : Nat := 1024
/-- Report ports at most (R164). -/
def maxReportPorts : Nat := 2
/-- Matches that bring a checker into sync (R185). -/
def syncMatches : Nat := 64
/-- Bits of a checker block, and the errors a good block may hold (R186). -/
def testBlockBits : Nat := 128
def testBlockErrors : Nat := 16
/-- Bad blocks in a row that lose sync (R186). -/
def badBlocksToLose : Nat := 4
/-- Bits sent in one slot, all 144 bytes (section 1.1). -/
def slotBits : Nat := 1152
/-- Duration of a move deadline code, in microseconds (R145). -/
def moveDuration (code : Nat) : Nat :=
  match code with
  | 0 => 500
  | 1 => 2000
  | 2 => 8000
  | _ => 32000
/-- Identification words of IDENTIFY (R163). -/
def vendorCode : BitVec 32 := 0x0316
def partCode : BitVec 32 := 0x2432
def revision : BitVec 32 := 1
def portCount : BitVec 32 := 24

end Sys2Proof.Config
end

