-- ==== Sys2Proof/Machine/State.lean ====
section
/-! DEFINITION. The state of the JV2432, as plain data, and its value right after a device reset. What a
port owns stands in `Port`, what a destination owns in `DidState`, and the rest in `State`. -/

namespace Sys2Proof.Machine

/-- Why the machine stops with a fault. No rule of the manual stops the element: every event leaves a
next state, so this type has no constructor, and no command faults. -/
inductive Fault where
  deriving DecidableEq, Repr

/-- Why a command has no meaning. -/
inductive Refusal where
  /-- Raised by an arm of `exec` that has no meaning yet. Safe: the model stops. -/
  | notModelled (mnemonic : String)
  deriving DecidableEq, Repr

/-! ### Link ports -/

/-- The six link states (section 2.1). -/
inductive LinkState where
  | disabled | acquiring | waiting | up | faulted | test
  deriving DecidableEq, Repr

/-- The causes of the last port-down (R25). -/
inductive DownCause where
  | none | headerLoss | partner | slip | fault | test | disable | fabricReset
  deriving DecidableEq, Repr

/-- What a cell with a failed payload check does (R6). -/
inductive PayloadMode where
  | forward | drop
  deriving DecidableEq, Repr

/-- The settings of one port (section 2.10). A cadence slot is true for Send. -/
structure Settings where
  enable : Bool
  autoRecentre : Bool
  payloadMode : PayloadMode
  squelch : Bool
  qualityFault : Bool
  stuckN : Nat
  stuckK : Nat
  qualA : Nat
  qualD : Nat
  cadence : List Bool
  mayCommand : Bool
  report : Bool
  deriving DecidableEq, Repr

/-- The stuck-line monitor (R30, R31). `lastBit` and the two fields of the present block are what the
rules need to find runs, blocks and transitions. -/
structure StuckMonitor where
  asserted : Bool
  runLength : Nat
  cleanBlocks : Nat
  lastBit : Option Bool
  blockBits : Nat
  blockTransition : Bool
  deriving DecidableEq, Repr

/-- The quality monitor (R33). -/
structure QualityMonitor where
  figure : BitVec 6
  alarm : Bool
  deriving DecidableEq, Repr

/-! ### Pattern units -/

/-- The test patterns (R183). -/
inductive Pattern where
  | off | p7 | p23 | p31 | user
  deriving DecidableEq, Repr

/-- The test timebases (R183). -/
inductive Timebase where
  | continuous | bits24 | bits32 | bits40
  deriving DecidableEq, Repr

/-- The sync states of a checker (R183). -/
inductive SyncState where
  | searching | inSync
  deriving DecidableEq, Repr

/-- The seven settings TEST-START gives a pattern unit (R170, R183). -/
structure TestSettings where
  genPattern : Pattern
  chkPattern : Pattern
  genInvert : Bool
  chkInvert : Bool
  timebase : Timebase
  syncMask : Bool
  user : BitVec 64
  deriving DecidableEq, Repr

/-- The pattern unit of a port (R183), with the registers R184 to R186 imply: the last 31 bits of the
generator and of the checker (newest in bit 0), their positions in the USER pattern, the bits of a seed
loaded so far, the match run, and the bits and errors of the present block. `running` says that the first
slot after the start of the test has come, with which the generator and the checker begin (R183). -/
structure PatternUnit where
  settings : TestSettings
  running : Bool
  sync : SyncState
  syncEver : Bool
  errorCount : BitVec 48
  progress : Nat
  lastResult : BitVec 48
  badRun : Nat
  genReg : BitVec 31
  genPos : Nat
  chkReg : BitVec 31
  chkPos : Nat
  seeded : Nat
  matchRun : Nat
  blockBits : Nat
  blockErrors : Nat
  deriving DecidableEq, Repr

/-! ### Stored cells, queues and trains -/

/-- A cell held in a store: what R92 carries into the queue, and the payload. `count` is the count field
as sent, one less than the number of bytes (R8). -/
structure StoredCell where
  src : PortId
  first : Bool
  last : Bool
  count : BitVec 7
  poison : Bool
  payload : Payload
  deriving DecidableEq, Repr

/-- One stored multicast cell with its fan-out (R132, R136). `name` is the model's name of its store. -/
structure McCell where
  name : Nat
  cell : StoredCell
  fanOut : Nat
  deriving DecidableEq, Repr

/-- An entry of an egress queue (R109). `cell` is a unicast cell in a queue of classes 1..3 and a
class-0 cell in a queue of class 0. -/
inductive QEntry where
  | cell (c : StoredCell)
  | mref (name : Nat)
  | mark (src : PortId) (mc : Bool)
  deriving DecidableEq, Repr

/-- The train states (R94). -/
inductive TrainState where
  | idle | open | broken
  deriving DecidableEq, Repr

/-- A multicast train record (R128). -/
structure McTrain where
  state : TrainState
  snapshot : DidSet
  deriving DecidableEq, Repr

/-- A marker key (s, d, c, unicast or multicast) of the owed-marker list (R101). -/
structure MarkerKey where
  src : PortId
  did : Did
  cls : Cls
  mc : Bool
  deriving DecidableEq, Repr

/-- A multicast group entry (R127). -/
structure Group where
  valid : Bool
  members : DidSet
  excludeSource : Bool
  deriving DecidableEq, Repr

/-! ### Bids and grants -/

/-- An entry of a bid queue (R64). -/
structure BidEntry where
  src : PortId
  backlog : Nat
  deriving DecidableEq, Repr

/-- An open grant record (R71). The deadline is a time of the element's clock, in microseconds. -/
structure GrantRec where
  remaining : Nat
  deadline : Option Nat
  deriving DecidableEq, Repr

/-- An entry of a grant outbox (R77). -/
structure GrantEntry where
  cls : GClass
  did : Did
  quota : Nat
  deriving DecidableEq, Repr

/-- The refusal reasons (R12). -/
inductive Reason where
  | unmapped | destDown | revoked
  deriving DecidableEq, Repr

/-- An entry of a refusal outbox (R69). -/
structure RefusalEntry where
  cls : GClass
  did : Did
  reason : Reason
  deriving DecidableEq, Repr

/-- The usage of a DID in a granted class, in its two parts (R49). -/
structure Usage where
  occupied : Nat
  reserved : Nat
  deriving DecidableEq, Repr

/-! ### Control -/

/-- A command, response or notice frame: 32 words (section 1.7). -/
abbrev Frame := Vector Word 32

/-- A command waiting in the command queue (R158). -/
structure CmdCell where
  src : PortId
  first : Bool
  last : Bool
  frame : Frame
  deriving DecidableEq, Repr

/-- The two states of the command unit (R159). -/
inductive CmdUnit where
  | ready
  | holding (port : PortId) (frame : Frame)
  deriving DecidableEq, Repr

/-! ### Ports and destinations -/

/-- The counters of one port (R179). -/
structure PortCounters where
  cellsIn : BitVec 32
  cellsOut : BitVec 32
  hdrErr : BitVec 32
  badKind : BitVec 32
  payloadErr : BitVec 32
  slip : BitVec 32
  late : BitVec 32
  orphan : BitVec 32
  broken : BitVec 32
  c0Overrun : BitVec 32
  mcPool : BitVec 32
  mcNoMember : BitVec 32
  groupInvalid : BitVec 32
  badBid : BitVec 32
  refusalLost : BitVec 32
  grantExpired : BitVec 32
  deriving DecidableEq, Repr

/-- The counters of one DID (R179). -/
structure DidCounters where
  unmapped : BitVec 32
  destDown : BitVec 32
  flush : BitVec 32
  moveFlush : BitVec 32
  mcPrune : BitVec 32
  deriving DecidableEq, Repr

/-- The round state of a port's scheduler (R112). -/
structure Round where
  pattern : List Bool
  position : Nat
  /-- The slot that is open ends with a wrap, at which the stored cadence comes into effect (R113, R114). -/
  wraps : Bool
  budget : PerG Nat
  c0Pointer : Nat
  didPointer : PerG Nat
  deriving DecidableEq, Repr

/-- What a port sent in its last slot (R20): nothing, a cell, or the bits of a test pattern. -/
inductive Sent where
  | quiet
  | cell (c : RawCell)
  | pattern (bits : List Bool)
  deriving DecidableEq, Repr

/-- Everything a link port owns, and what the other blocks keep per source port. -/
structure Port where
  link : LinkState
  alignCount : Nat
  failCount : Nat
  /-- Received bytes the byte search of R21 has not passed yet, and the bytes it will skip first. -/
  searchBytes : List Byte
  searchSkip : Nat
  partnerAligned : Bool
  elastic : Nat
  stuck : StuckMonitor
  quality : QualityMonitor
  holds : PerClass Bool
  lastDown : DownCause
  settings : Settings
  round : Round
  elements : List Frame
  grants : Vector (PerG (Option GrantRec)) 32
  grantOutbox : List GrantEntry
  refusalOutbox : List RefusalEntry
  trains : Vector (PerClass TrainState) 32
  mcTrains : PerG McTrain
  /-- Class-0 cells held h and credit returns owed o (R155). -/
  held : Nat
  owed : Nat
  watchMask : BitVec 5
  watchExpect : BitVec 5
  watchMatch : Bool
  noticeFlag : Bool
  counters : PortCounters
  test : PatternUnit
  /-- The transmit side of the link: what left in the last slot. -/
  sent : Sent
  deriving DecidableEq, Repr

/-- The state of a destination entry with the parts present in it (R142). -/
inductive DidMap where
  | unmapped
  | mapped (port : PortId)
  | moving (port target : PortId) (deadline : Nat) (code : Nat)
  deriving DecidableEq, Repr

/-- The results of the last completed move (R142). -/
inductive MoveResult where
  | none | drained | forced | interrupted
  deriving DecidableEq, Repr

/-- Everything the element keeps per destination. -/
structure DidState where
  map : DidMap
  lastMove : MoveResult
  moveDone : Bool
  floor : Nat
  usage : PerG Usage
  bids : PerG (List BidEntry)
  queues : PerClass (List QEntry)
  /-- Multicast reference count of each queue of classes 1..3 (R135). -/
  mcRefs : PerG Nat
  counters : DidCounters
  deriving DecidableEq, Repr

/-- The settings of a granted class (R166). -/
structure ClassSettings where
  grantMax : Nat
  exponent : Int
  weight : Nat
  mcLimit : Nat
  deriving DecidableEq, Repr

/-- The functions of a status line (R163, R182). -/
inductive LineFunction where
  | low | high | noticePending | anyFaulted | mcHold
  deriving DecidableEq, Repr

/-- The state of the element, and the queue of commands that wait to be taken. -/
structure State where
  ports : Vector Port 24
  dids : Vector DidState 32
  classes : PerG ClassSettings
  /-- Grant lifetime in microseconds (R82). -/
  lifetime : Nat
  /-- Marker use (R47) and the owed-marker list, oldest first (R101). -/
  markerUse : Nat
  owedMarkers : List MarkerKey
  /-- The group table (R127). -/
  groups : Vector Group 512
  /-- Multicast pool size and use, the stored cells, and the next name the model gives a store. -/
  poolSize : Nat
  poolUse : Nat
  mcCells : List McCell
  mcNext : Nat
  /-- Multicast hold thresholds and state (R137). -/
  holdOn : Nat
  holdOff : Nat
  mcHold : Bool
  /-- Element allowance use (R157), command queue (R158) and command unit (R159). -/
  elementUse : Nat
  cmdQueue : List CmdCell
  cmdUnit : CmdUnit
  /-- The element-wide counter CMD_LOST (R179). -/
  cmdLost : BitVec 32
  status0 : LineFunction
  status1 : LineFunction
  /-- The plane number read from the straps (R181). -/
  plane : BitVec 3
  /-- The element's clock, in microseconds: deadlines are times of it (R78, R142). -/
  now : Nat
  /-- The commands that wait, first in, first out. -/
  pending : List Instr
  deriving DecidableEq, Repr

/-! ### Device reset -/

/-- Port settings after device reset (section 2.10). -/
def Settings.reset : Settings :=
  { enable := true, autoRecentre := true, payloadMode := .forward, squelch := false,
    qualityFault := true, stuckN := 15, stuckK := 7, qualA := 6, qualD := 12, cadence := [true],
    mayCommand := true, report := false }

/-- Stuck-line monitor after device reset and at each entry to DISABLED (R30). -/
def StuckMonitor.reset : StuckMonitor :=
  { asserted := false, runLength := 0, cleanBlocks := 0, lastBit := none, blockBits := 0,
    blockTransition := false }

/-- Quality monitor after device reset and at each entry to DISABLED (R33). -/
def QualityMonitor.reset : QualityMonitor := { figure := 0, alarm := false }

/-- Pattern unit after device reset: every item 0, off or SEARCHING (R183), and no test running. The generator
and checker registers, which R184 and R185 set at the start of a test, are 0 (DESIGN CHOICE, log entry 1). -/
def PatternUnit.reset : PatternUnit :=
  { settings := { genPattern := .off, chkPattern := .off, genInvert := false, chkInvert := false,
                  timebase := .continuous, syncMask := false, user := 0 },
    running := false, sync := .searching, syncEver := false, errorCount := 0, progress := 0, lastResult := 0, badRun := 0,
    genReg := 0, genPos := 0, chkReg := 0, chkPos := 0, seeded := 0, matchRun := 0, blockBits := 0,
    blockErrors := 0 }

/-- Port counters after device reset (R179). -/
def PortCounters.zero : PortCounters :=
  ⟨0, 0, 0, 0, 0, 0, 0, 0, 0, 0, 0, 0, 0, 0, 0, 0⟩

/-- DID counters after device reset (R179). -/
def DidCounters.zero : DidCounters := ⟨0, 0, 0, 0, 0⟩

/-- A multicast train record in IDLE with an empty snapshot (R128). -/
def McTrain.idle : McTrain := { state := .idle, snapshot := 0 }

/-- Class settings after device reset (R63, R122, R141). -/
def ClassSettings.reset : PerG ClassSettings :=
  { c1 := { grantMax := 32, exponent := 1, weight := 8, mcLimit := 256 },
    c2 := { grantMax := 16, exponent := 0, weight := 4, mcLimit := 256 },
    c3 := { grantMax := 8, exponent := -1, weight := 2, mcLimit := 256 } }

/-- Round state after device reset (R112). -/
def Round.reset : Round :=
  { pattern := [true], position := 0, wraps := true, budget := ⟨8, 4, 2⟩, c0Pointer := 0, didPointer := .const 0 }

/-- A port after device reset (R41, R91, R94, R128, R172, R174, R179, R183). -/
def Port.reset : Port :=
  { link := .acquiring, alignCount := 0, failCount := 0, searchBytes := [], searchSkip := 0,
    partnerAligned := false, elastic := Config.elasticCentre, stuck := .reset, quality := .reset,
    holds := .const false, lastDown := .none, settings := .reset, round := .reset, elements := [],
    grants := Vector.replicate 32 (.const none), grantOutbox := [], refusalOutbox := [],
    trains := Vector.replicate 32 (.const .idle), mcTrains := .const .idle, held := 0, owed := 0,
    watchMask := 0, watchExpect := 0, watchMatch := true, noticeFlag := false, counters := .zero,
    test := .reset, sent := .quiet }

/-- A destination after device reset: DIDs 0..23 are mapped to the port of the same number, 24..31 are
unmapped (R142), every floor is 64 (R63). -/
def DidState.reset (d : Did) : DidState :=
  { map := if h : d.val < 24 then .mapped ⟨d.val, h⟩ else .unmapped, lastMove := .none,
    moveDone := false, floor := 64, usage := .const ⟨0, 0⟩, bids := .const [], queues := .const [],
    mcRefs := .const 0, counters := .zero }

/-- The machine right after a device reset, with the plane straps at 0 (DESIGN CHOICE, log entry 2). -/
def State.reset : State :=
  { ports := Vector.replicate 24 .reset, dids := Vector.ofFn DidState.reset, classes := ClassSettings.reset,
    lifetime := 40, markerUse := 0, owedMarkers := [], groups := Vector.replicate 512 ⟨false, 0, false⟩,
    poolSize := 2048, poolUse := 0, mcCells := [], mcNext := 0, holdOn := 192, holdOff := 384,
    mcHold := false, elementUse := 0, cmdQueue := [], cmdUnit := .ready, cmdLost := 0,
    status0 := .noticePending, status1 := .anyFaulted, plane := 0, now := 0, pending := [] }

end Sys2Proof.Machine
end

