-- ==== Sys2Proof/Machine/Ops.lean ====
section
/-! DEFINITION. The named operations over the state: reading and writing a port, a destination, a grant
record, a train entry or a queue, counting, the marker use, and class-0 credits. -/

namespace Sys2Proof.Machine

/-! ### Ports and destinations -/

/-- The port numbered `p`. -/
def State.port (s : State) (p : PortId) : Port := s.ports[p]

/-- The destination numbered `d`. -/
def State.did (s : State) (d : Did) : DidState := s.dids[d]

/-- Port `p` replaced by its image. -/
def State.updPort (s : State) (p : PortId) (f : Port → Port) : State :=
  { s with ports := s.ports.set p (f s.ports[p]) }

/-- Destination `d` replaced by its image. -/
def State.updDid (s : State) (d : Did) (f : DidState → DidState) : State :=
  { s with dids := s.dids.set d (f s.dids[d]) }

/-- Every port replaced by its image. -/
def State.mapPorts (s : State) (f : PortId → Port → Port) : State :=
  { s with ports := tabMap f s.ports }

/-- Every destination replaced by its image. -/
def State.mapDids (s : State) (f : Did → DidState → DidState) : State :=
  { s with dids := tabMap f s.dids }

/-- Port `p` is in UP. -/
def State.isUp (s : State) (p : PortId) : Bool := decide ((s.port p).link = .up)

/-! ### The destination map -/

/-- The port of an entry, present in MAPPED and MOVING (R142). -/
def DidMap.port? : DidMap → Option PortId
  | .unmapped => none
  | .mapped p => some p
  | .moving p _ _ _ => some p

/-- The entry is MOVING. -/
def DidMap.isMoving : DidMap → Bool
  | .moving _ _ _ _ => true
  | _ => false

/-- The port DID `d` maps to, MAPPED or MOVING. -/
def State.portOf (s : State) (d : Did) : Option PortId := (s.did d).map.port?

/-- DID `d` maps to port `p`, MAPPED or MOVING (R111). -/
def State.mapsTo (s : State) (d : Did) (p : PortId) : Bool := decide (s.portOf d = some p)

/-- DID `d` is MAPPED or MOVING to a port that is UP: it is not destination-down (R143). -/
def State.reachable (s : State) (d : Did) : Bool :=
  match s.portOf d with
  | some p => s.isUp p
  | none => false

/-- The DIDs mapped to port `p`, MAPPED or MOVING, in ascending order (R152). -/
def State.didsOf (s : State) (p : PortId) : List Did := allDids.filter fun d => s.mapsTo d p

/-! ### Counters -/

/-- A 32-bit counter raised by one; it stays at its top value (R179). -/
def countUp (c : BitVec 32) : BitVec 32 := if c = BitVec.allOnes 32 then c else c + 1

/-- A 32-bit counter raised by one `n` times (R179). -/
def countUpBy (c : BitVec 32) (n : Nat) : BitVec 32 :=
  BitVec.ofNat 32 (min (c.toNat + n) (2 ^ 32 - 1))

/-- A change of the counters of port `p`. -/
def State.countPort (s : State) (p : PortId) (f : PortCounters → PortCounters) : State :=
  s.updPort p fun P => { P with counters := f P.counters }

/-- A change of the counters of DID `d`. -/
def State.countDid (s : State) (d : Did) (f : DidCounters → DidCounters) : State :=
  s.updDid d fun D => { D with counters := f D.counters }

def PortCounters.incCellsIn (k : PortCounters) : PortCounters := { k with cellsIn := countUp k.cellsIn }
def PortCounters.incCellsOut (k : PortCounters) : PortCounters := { k with cellsOut := countUp k.cellsOut }
def PortCounters.incHdrErr (k : PortCounters) : PortCounters := { k with hdrErr := countUp k.hdrErr }
def PortCounters.incBadKind (k : PortCounters) : PortCounters := { k with badKind := countUp k.badKind }
def PortCounters.incPayloadErr (k : PortCounters) : PortCounters :=
  { k with payloadErr := countUp k.payloadErr }
def PortCounters.incSlip (k : PortCounters) : PortCounters := { k with slip := countUp k.slip }
def PortCounters.incLate (k : PortCounters) : PortCounters := { k with late := countUp k.late }
def PortCounters.incOrphan (k : PortCounters) : PortCounters := { k with orphan := countUp k.orphan }
def PortCounters.incBroken (k : PortCounters) : PortCounters := { k with broken := countUp k.broken }
def PortCounters.incC0Overrun (k : PortCounters) : PortCounters := { k with c0Overrun := countUp k.c0Overrun }
def PortCounters.incMcPool (k : PortCounters) : PortCounters := { k with mcPool := countUp k.mcPool }
def PortCounters.incMcNoMember (k : PortCounters) : PortCounters :=
  { k with mcNoMember := countUp k.mcNoMember }
def PortCounters.incGroupInvalid (k : PortCounters) : PortCounters :=
  { k with groupInvalid := countUp k.groupInvalid }
def PortCounters.incBadBid (k : PortCounters) : PortCounters := { k with badBid := countUp k.badBid }
def PortCounters.incRefusalLost (k : PortCounters) : PortCounters :=
  { k with refusalLost := countUp k.refusalLost }
def PortCounters.incGrantExpired (k : PortCounters) : PortCounters :=
  { k with grantExpired := countUp k.grantExpired }
def DidCounters.incUnmapped (k : DidCounters) : DidCounters := { k with unmapped := countUp k.unmapped }
def DidCounters.incDestDown (k : DidCounters) : DidCounters := { k with destDown := countUp k.destDown }
def DidCounters.incMcPrune (k : DidCounters) : DidCounters := { k with mcPrune := countUp k.mcPrune }
def DidCounters.addFlush (n : Nat) (k : DidCounters) : DidCounters := { k with flush := countUpBy k.flush n }
def DidCounters.addMoveFlush (n : Nat) (k : DidCounters) : DidCounters :=
  { k with moveFlush := countUpBy k.moveFlush n }

/-! ### Queues, bids, grants and trains -/

/-- The egress queue (d, c) (R109). -/
def State.queue (s : State) (d : Did) (c : Cls) : List QEntry := (s.did d).queues.get c

def State.setQueue (s : State) (d : Did) (c : Cls) (q : List QEntry) : State :=
  s.updDid d fun D => { D with queues := D.queues.set c q }

/-- An entry appended at the tail of the queue (d, c) (R109). -/
def State.enqueue (s : State) (d : Did) (c : Cls) (e : QEntry) : State :=
  s.setQueue d c (s.queue d c ++ [e])

/-- The bid queue (d, c) (R64). -/
def State.bids (s : State) (d : Did) (c : GClass) : List BidEntry := (s.did d).bids.get c

def State.setBids (s : State) (d : Did) (c : GClass) (q : List BidEntry) : State :=
  s.updDid d fun D => { D with bids := D.bids.set c q }

/-- The grant record (s, d, c), none while no record is open (R71). -/
def Port.grant (P : Port) (d : Did) (c : GClass) : Option GrantRec := (P.grants[d]).get c

def Port.setGrant (P : Port) (d : Did) (c : GClass) (g : Option GrantRec) : Port :=
  { P with grants := P.grants.set d ((P.grants[d]).set c g) }

def State.grant (s : State) (p : PortId) (d : Did) (c : GClass) : Option GrantRec := (s.port p).grant d c

def State.setGrant (s : State) (p : PortId) (d : Did) (c : GClass) (g : Option GrantRec) : State :=
  s.updPort p fun P => P.setGrant d c g

/-- The train entry (s, d, c) (R94). -/
def Port.train (P : Port) (d : Did) (c : Cls) : TrainState := (P.trains[d]).get c

def Port.setTrain (P : Port) (d : Did) (c : Cls) (t : TrainState) : Port :=
  { P with trains := P.trains.set d ((P.trains[d]).set c t) }

def State.train (s : State) (p : PortId) (d : Did) (c : Cls) : TrainState := (s.port p).train d c

def State.setTrain (s : State) (p : PortId) (d : Did) (c : Cls) (t : TrainState) : State :=
  s.updPort p fun P => P.setTrain d c t

/-- The multicast train record (s, c) (R128). -/
def State.mcTrain (s : State) (p : PortId) (c : GClass) : McTrain := (s.port p).mcTrains.get c

def State.setMcTrain (s : State) (p : PortId) (c : GClass) (t : McTrain) : State :=
  s.updPort p fun P => { P with mcTrains := P.mcTrains.set c t }

/-! ### Usage -/

/-- The usage of DID `d` in class `c`, in its two parts (R49). -/
def State.usage (s : State) (d : Did) (c : GClass) : Usage := (s.did d).usage.get c

def State.setUsage (s : State) (d : Did) (c : GClass) (u : Usage) : State :=
  s.updDid d fun D => { D with usage := D.usage.set c u }

/-- A grant reserves `q` cells (R54). -/
def Usage.reserve (q : Nat) (u : Usage) : Usage := { u with reserved := u.reserved + q }
/-- Unused reservation returned (R59). -/
def Usage.unreserve (n : Nat) (u : Usage) : Usage := { u with reserved := u.reserved - n }
/-- A cell admitted under a record: one cell moves from the reserved to the occupied part (R55). -/
def Usage.fill (u : Usage) : Usage :=
  if u.reserved = 0 then u else { occupied := u.occupied + 1, reserved := u.reserved - 1 }
/-- A late cell admitted (R56). -/
def Usage.admitLate (u : Usage) : Usage := { u with occupied := u.occupied + 1 }
/-- A unicast cell leaves its queue (R57, R58). -/
def Usage.release (u : Usage) : Usage := { u with occupied := u.occupied - 1 }

def State.updUsage (s : State) (d : Did) (c : GClass) (f : Usage → Usage) : State :=
  s.setUsage d c (f (s.usage d c))

/-! ### Class-0 credits -/

/-- The credit test: h + o below 8 (R99, R155). -/
def State.creditOk (s : State) (p : PortId) : Bool :=
  decide ((s.port p).held + (s.port p).owed < Config.portCredits)

/-- A class-0 cell of port `p` is admitted, or its command enters the queue: h rises by 1 (R155). -/
def State.holdCredit (s : State) (p : PortId) : State :=
  s.updPort p fun P => { P with held := P.held + 1 }

/-- A class-0 cell of port `p` is dropped or refused: if it arrived under a credit, o rises by 1 while
the port is UP (R99, R155). -/
def State.refundCredit (s : State) (p : PortId) : State :=
  if s.creditOk p && s.isUp p then s.updPort p fun P => { P with owed := P.owed + 1 } else s

/-- A class-0 cell of port `p` departs, is flushed or is taken by the command unit: h falls by 1, and o
rises by 1 while the port is UP (R155). One unit moves from h to o, so with h at 0 nothing moves. -/
def State.releaseCredit (s : State) (p : PortId) : State :=
  s.updPort p fun P =>
    if P.held = 0 then P
    else { P with held := P.held - 1, owed := if P.link = .up then P.owed + 1 else P.owed }

/-! ### Refusals -/

/-- A refusal queued to source port `p` (R69). -/
def State.refuse (s : State) (p : PortId) (r : RefusalEntry) : State :=
  let box := (s.port p).refusalOutbox
  if !s.isUp p then s
  else if r ∈ box then s
  else if box.length ≥ Config.refusalOutboxSize then s.countPort p .incRefusalLost
  else s.updPort p fun P => { P with refusalOutbox := P.refusalOutbox ++ [r] }

/-! ### Markers -/

/-- A MARK entry appended at the tail of its queue; the marker use rises by 1 (R47, R100). -/
def State.placeMark (s : State) (k : MarkerKey) : State :=
  { s.enqueue k.did k.cls (.mark k.src k.mc) with markerUse := s.markerUse + 1 }

/-- A marker placed while the marker use is below 64, and owed otherwise, once per key (R100, R101). -/
def State.makeMark (s : State) (k : MarkerKey) : State :=
  if s.markerUse < Config.markerReserve then s.placeMark k
  else if k ∈ s.owedMarkers then s
  else { s with owedMarkers := s.owedMarkers ++ [k] }

/-- Markers made one after another. -/
def State.makeMarks (s : State) (ks : List MarkerKey) : State := ks.foldl State.makeMark s

/-- An owed marker cancelled (R103). -/
def State.cancelMark (s : State) (k : MarkerKey) : State :=
  { s with owedMarkers := s.owedMarkers.filter fun x => !decide (x = k) }

/-- Every owed marker of DID `d` discarded (R105, R106). -/
def State.discardMarksOf (s : State) (d : Did) : State :=
  { s with owedMarkers := s.owedMarkers.filter fun x => !decide (x.did = d) }

end Sys2Proof.Machine
end

