-- ==== Sys2Proof/Machine/Operands.lean ====
section
/-! DEFINITION. The formats of chapter 1: the two checks, the ingress header and its classification, the
egress header, and the command, response and notice frames with their codes. -/

namespace Sys2Proof.Machine

/-! ### The checks (R2, R3) -/

/-- One bit step of the header check register, generator x^8+x^2+x+1. -/
def crc8Bit (r : BitVec 8) : BitVec 8 := if r.msb then (r <<< 1) ^^^ 0x07#8 else r <<< 1

/-- The header check register after one more byte, most significant bit first. -/
def crc8Byte (r : BitVec 8) (b : Byte) : BitVec 8 := Nat.repeat crc8Bit 8 (r ^^^ b)

/-- The header check over the bytes in order: from zero, the result inverted (R2). -/
def headerCheck (bytes : List Byte) : BitVec 8 := ~~~ (bytes.foldl crc8Byte 0)

/-- One bit step of the payload check register, generator x^16+x^12+x^5+1. -/
def crc16Bit (r : BitVec 16) : BitVec 16 := if r.msb then (r <<< 1) ^^^ 0x1021#16 else r <<< 1

/-- The payload check register after one more byte, most significant bit first. -/
def crc16Byte (r : BitVec 16) (b : Byte) : BitVec 16 :=
  Nat.repeat crc16Bit 8 (r ^^^ (b.setWidth 16 <<< 8))

/-- The payload check over the bytes in order: from all ones, nothing added to the result (R3). -/
def payloadCheck (bytes : List Byte) : BitVec 16 := bytes.foldl crc16Byte 0xFFFF#16

/-- A header passes when the check over its bytes 0 to 14 equals its byte 15 (R2). -/
def headerPasses (h : HeaderBytes) : Bool := decide (headerCheck (h.toList.take 15) = h[15])

/-- A cell's payload passes when the check over it equals header bytes 13 and 14 (R3). -/
def payloadPasses (c : RawCell) : Bool :=
  decide (payloadCheck c.payload.toList = c.header[13] ++ c.header[14])

/-! ### The ingress header (R7 to R10, section 1.6.1) -/

/-- The kinds of cell a three-bit code names in the ingress direction (section 1.1). -/
inductive Kind where
  | fill | data | mdata | ctrl | mark | reserved
  deriving DecidableEq, Repr

def Kind.ofCode (b : BitVec 3) : Kind :=
  if b = 0 then .fill else if b = 1 then .data else if b = 2 then .mdata else if b = 3 then .ctrl
  else if b = 4 then .mark else .reserved

/-- A bid slot of an ingress header (R9). -/
structure BidSlot where
  valid : Bool
  cls : Cls
  did : Did
  count : Nat
  deriving DecidableEq, Repr

/-- The fields of an ingress header. -/
structure IngressHeader where
  kind : Kind
  cls : Cls
  first : Bool
  last : Bool
  aligned : Bool
  holds : PerClass Bool
  element : Bool
  target : BitVec 9
  count : BitVec 7
  bids : List BidSlot
  deriving DecidableEq, Repr

/-- The destination a five-bit field names. -/
def didOfBits (b : BitVec 5) : Did := ⟨b.toNat, b.isLt⟩

/-- A bid slot read from its two bytes. -/
def BidSlot.read (b0 b1 : Byte) : BidSlot :=
  { valid := b0.getLsbD 7, cls := .ofCode (b0.extractLsb' 5 2), did := didOfBits (b0.extractLsb' 0 5),
    count := b1.toNat }

/-- The ingress header read from its bytes (section 1.6.1). -/
def IngressHeader.read (h : HeaderBytes) : IngressHeader :=
  { kind := .ofCode (h[0].extractLsb' 5 3), cls := .ofCode (h[0].extractLsb' 3 2),
    first := h[0].getLsbD 2, last := h[0].getLsbD 1, aligned := h[0].getLsbD 0,
    holds := ⟨h[1].getLsbD 4, h[1].getLsbD 5, h[1].getLsbD 6, h[1].getLsbD 7⟩,
    element := h[1].getLsbD 3, target := h[1].extractLsb' 0 1 ++ h[2],
    count := h[3].extractLsb' 0 7,
    bids := [.read h[5] h[6], .read h[7] h[8], .read h[9] h[10], .read h[11] h[12]] }

/-- The destination in the target field of a DATA or CTRL cell (R7). -/
def IngressHeader.did (h : IngressHeader) : Did := didOfBits (h.target.extractLsb' 0 5)

/-- The group in the target field of an MDATA cell (R7). -/
def IngressHeader.group (h : IngressHeader) : GroupId := ⟨h.target.toNat, h.target.isLt⟩

/-- What R1 accepts a cell as. -/
inductive CellClass where
  | fill
  | unicast (c : GClass)
  | class0
  | multicast (c : GClass)
  | command
  | badKind
  deriving DecidableEq, Repr

/-- The classification of R1. -/
def IngressHeader.classify (h : IngressHeader) : CellClass :=
  match h.kind, h.cls.granted?, h.element with
  | .fill, _, _ => .fill
  | .data, some c, false => .unicast c
  | .mdata, some c, false => .multicast c
  | .ctrl, none, false => .class0
  | .ctrl, none, true => .command
  | _, _, _ => .badKind

/-- The cell is DATA, MDATA or CTRL: what the cells in counter counts (R179). -/
def IngressHeader.carriesCell (h : IngressHeader) : Bool :=
  match h.kind with
  | .data | .mdata | .ctrl => true
  | _ => false

/-! ### The egress header (R11, R12, section 1.6.2) -/

/-- The cell fields of an egress header (R11). -/
structure CellFields where
  kind : BitVec 3
  cls : Cls
  first : Bool
  last : Bool
  did : Did
  count : BitVec 7
  poison : Bool
  source : PortId
  elementOrigin : Bool
  mc : Bool
  deriving DecidableEq, Repr

/-- The fields that are filled whatever the kind (R11, R12). -/
structure LinkFields where
  aligned : Bool
  plane : BitVec 3
  mcHold : Bool
  grants : List GrantEntry
  refusal : Option RefusalEntry
  credits : BitVec 2
  deriving DecidableEq, Repr

/-- The code of a refusal reason (R12). -/
def Reason.code : Reason → BitVec 2
  | .unmapped => 1
  | .destDown => 2
  | .revoked => 3

/-- A valid class and DID byte of a grant slot or the refusal field. -/
def slotByte (c : GClass) (d : Did) : Byte := 1#1 ++ c.cls.code ++ BitVec.ofNat 5 d.val

/-- The two bytes of a grant slot; an empty slot is zero (R12). -/
def grantBytes : Option GrantEntry → List Byte
  | none => [0, 0]
  | some g => [slotByte g.cls g.did, BitVec.ofNat 8 g.quota]

/-- Header bytes 0 to 12 (section 1.6.2). -/
def egressFieldBytes (c : CellFields) (l : LinkFields) : List Byte :=
  let bit (b : Bool) : BitVec 1 := BitVec.ofBool b
  let reason : BitVec 2 := match l.refusal with
    | none => 0
    | some r => r.reason.code
  let refusal : Byte := match l.refusal with
    | none => 0
    | some r => slotByte r.cls r.did
  [c.kind ++ c.cls.code ++ bit c.first ++ bit c.last ++ bit l.aligned,
   BitVec.ofNat 5 c.did.val ++ l.plane,
   bit c.poison ++ c.count,
   bit c.mc ++ bit l.mcHold ++ bit c.elementOrigin ++ BitVec.ofNat 5 c.source.val,
   l.credits ++ 0#4 ++ reason,
   refusal] ++
  grantBytes l.grants[0]? ++ grantBytes l.grants[1]? ++ grantBytes l.grants[2]? ++ [0]

/-- The egress cell: the fields, the payload check over the payload sent, and last the header check over
all that stands before it (R2, R3, R121). -/
def egressCell (c : CellFields) (l : LinkFields) (payload : Payload) : RawCell :=
  let crc := payloadCheck payload.toList
  let bytes := egressFieldBytes c l ++ [crc.extractLsb' 8 8, crc.extractLsb' 0 8]
  let all := bytes ++ [headerCheck bytes]
  { header := Vector.ofFn fun i => all.getD i.val 0, payload := payload }

/-- The payload of a FILL or MARK cell (R11). -/
def zeroPayload : Payload := Vector.replicate 128 0

/-- The cell fields of a FILL cell (R11). -/
def fillFields : CellFields :=
  { kind := 0, cls := .c0, first := false, last := false, did := 0, count := 127, poison := false,
    source := 0, elementOrigin := false, mc := false }

/-- The cell fields of a stored cell sent for DID `d` in class `c` with the given kind (R11). -/
def storedFields (kind : BitVec 3) (c : Cls) (d : Did) (x : StoredCell) : CellFields :=
  { kind := kind, cls := c, first := x.first, last := x.last, did := d, count := x.count,
    poison := x.poison, source := x.src, elementOrigin := false, mc := false }

/-- The cell fields of a MARK (R11). -/
def markFields (c : Cls) (d : Did) (src : PortId) (mc : Bool) : CellFields :=
  { kind := 4, cls := c, first := false, last := false, did := d, count := 127, poison := false,
    source := src, elementOrigin := false, mc := mc }

/-- The cell fields of an element cell (R11). -/
def elementFields : CellFields :=
  { kind := 3, cls := .c0, first := true, last := true, did := 0, count := 127, poison := false,
    source := 0, elementOrigin := true, mc := false }

/-- The link fields of a FILL cell sent outside UP: no grant, refusal or credit (R20). -/
def idleLinkFields (s : State) (aligned : Bool) : LinkFields :=
  { aligned := aligned, plane := s.plane, mcHold := s.mcHold, grants := [], refusal := none, credits := 0 }

/-! ### Frames (R16 to R18, section 1.7) -/

/-- The 32 words of a payload, each most significant byte first. -/
def payloadFrame (p : Payload) : Frame :=
  Vector.ofFn fun i : Fin 32 =>
    p[4 * i.val]'(by omega) ++ p[4 * i.val + 1]'(by omega) ++ p[4 * i.val + 2]'(by omega) ++
      p[4 * i.val + 3]'(by omega)

/-- The payload that carries a frame. -/
def frameBytes (f : Frame) : Payload :=
  Vector.ofFn fun i : Fin 128 => (f[i.val / 4]'(by omega)).extractLsb' (8 * (3 - i.val % 4)) 8

/-- A frame from its head and the words after it; the rest is zero. -/
def Frame.make (head : Word) (words : List Word) : Frame :=
  Vector.ofFn fun i => (head :: words).getD i.val 0

/-- The status values (section 1.7). -/
inductive Status where
  | done | clamped | busy | denied | badCommand | badValue | inUse | lockout
  deriving DecidableEq, Repr

def Status.code : Status → BitVec 8
  | .done => 0
  | .clamped => 1
  | .busy => 2
  | .denied => 3
  | .badCommand => 4
  | .badValue => 5
  | .inUse => 6
  | .lockout => 7

/-- DONE or CLAMPED: the command was accepted (R160). -/
def Status.accepted : Status → Bool
  | .done | .clamped => true
  | _ => false

/-- The command codes of section 1.7. -/
inductive Code where
  | identify | portSet | portGet | classSet | poolSet | lifetimeSet | mapSet | mapMove | mapGet
  | groupSet | groupGet | noticeExpect | noticeRead | countersRead | testStart | testStop | testRead
  | linesSet | fabricReset
  deriving DecidableEq, Repr

/-- The command a code byte names, none for every unlisted value and for 0x80 (R16). -/
def Code.ofByte (b : Byte) : Option Code :=
  match b.toNat with
  | 0x01 => some .identify
  | 0x02 => some .portSet
  | 0x03 => some .portGet
  | 0x04 => some .classSet
  | 0x05 => some .poolSet
  | 0x06 => some .lifetimeSet
  | 0x07 => some .mapSet
  | 0x08 => some .mapMove
  | 0x09 => some .mapGet
  | 0x0A => some .groupSet
  | 0x0B => some .groupGet
  | 0x0C => some .noticeExpect
  | 0x0D => some .noticeRead
  | 0x0E => some .countersRead
  | 0x0F => some .testStart
  | 0x10 => some .testStop
  | 0x11 => some .testRead
  | 0x12 => some .linesSet
  | 0x13 => some .fabricReset
  | _ => none

/-- The parameter words a command needs (R163 to R171). -/
def Code.needs : Code → Nat
  | .identify | .noticeRead | .fabricReset => 0
  | .portGet | .lifetimeSet | .mapGet | .groupGet | .testStop | .testRead => 1
  | .linesSet => 2
  | .mapSet | .mapMove | .noticeExpect | .countersRead => 3
  | .groupSet => 4
  | .testStart => 9
  | .classSet => 12
  | .portSet => 15
  | .poolSet => 19

/-- Word `i` of a frame, 0 past its end. -/
def Frame.word (f : Frame) (i : Nat) : Word := f.toList.getD i 0

/-- The code, tag and parameter count bytes of a frame head (section 1.7). -/
def Frame.code (f : Frame) : Byte := (f[0]).extractLsb' 24 8
def Frame.tag (f : Frame) : Byte := (f[0]).extractLsb' 16 8
def Frame.count (f : Frame) : Nat := ((f[0]).extractLsb' 8 8).toNat

/-- The command a waiting cell is read as, none where it is answered BAD_COMMAND (R16). -/
def CmdCell.reading (x : CmdCell) : Option Code :=
  if !(x.first && x.last) then none
  else match Code.ofByte x.frame.code with
    | none => none
    | some c => if x.frame.count > 31 then none else if x.frame.count < c.needs then none else some c

/-- Parameter word `i` of a command, numbered from 1 (section 9.3.3). -/
def CmdCell.param (x : CmdCell) (i : Nat) : Word := x.frame.word i

/-- The response frame to a command: code and tag echoed, and no result word unless accepted (R17). -/
def responseFrame (f : Frame) (st : Status) (results : List Word) : Frame :=
  let words := if st.accepted then results else []
  Frame.make (f.code ++ f.tag ++ st.code ++ BitVec.ofNat 8 words.length) words

/-- The notice frame with the port notice flags and move-done flags given (R18). -/
def noticeFrame (portFlags moveFlags : Word) : Frame :=
  Frame.make (0x80#8 ++ 0#8 ++ Status.done.code ++ 2#8) [portFlags, moveFlags]

/-! ### Identifiers and coded values in parameter words (R160, R162) -/

/-- A port number, none above 23. -/
def Word.port? (w : Word) : Option PortId := if h : w.toNat < 24 then some ⟨w.toNat, h⟩ else none

/-- A destination identifier, none above 31. -/
def Word.did? (w : Word) : Option Did := if h : w.toNat < 32 then some ⟨w.toNat, h⟩ else none

/-- A multicast group, none above 511. -/
def Word.group? (w : Word) : Option GroupId := if h : w.toNat < 512 then some ⟨w.toNat, h⟩ else none

/-- A two-valued setting: 0 is the first value, any other the second (R162). -/
def Word.flag (w : Word) : Bool := decide (w ≠ 0)

/-- A flag as a result word. -/
def flagWord (b : Bool) : Word := if b then 1 else 0

/-- A number as a result word. -/
def natWord (n : Nat) : Word := BitVec.ofNat 32 n

/-- A test pattern code, none above 4 (R170). -/
def Word.pattern? (w : Word) : Option Pattern :=
  match w.toNat with
  | 0 => some .off
  | 1 => some .p7
  | 2 => some .p23
  | 3 => some .p31
  | 4 => some .user
  | _ => none

/-- A timebase code, none above 3 (R170). -/
def Word.timebase? (w : Word) : Option Timebase :=
  match w.toNat with
  | 0 => some .continuous
  | 1 => some .bits24
  | 2 => some .bits32
  | 3 => some .bits40
  | _ => none

/-- A status line function code, none above 4 (R163). -/
def Word.line? (w : Word) : Option LineFunction :=
  match w.toNat with
  | 0 => some .low
  | 1 => some .high
  | 2 => some .noticePending
  | 3 => some .anyFaulted
  | 4 => some .mcHold
  | _ => none

/-- Link state code (R165). -/
def LinkState.word : LinkState → Word
  | .disabled => 0
  | .acquiring => 1
  | .waiting => 2
  | .up => 3
  | .faulted => 4
  | .test => 5

/-- Last down cause code (R165). -/
def DownCause.word : DownCause → Word
  | .none => 0
  | .headerLoss => 1
  | .partner => 2
  | .slip => 3
  | .fault => 4
  | .test => 5
  | .disable => 6
  | .fabricReset => 7

/-- Destination state code (R168). -/
def DidMap.word : DidMap → Word
  | .unmapped => 0
  | .mapped _ => 1
  | .moving _ _ _ _ => 2

/-- Last move result code (R168). -/
def MoveResult.word : MoveResult → Word
  | .none => 0
  | .drained => 1
  | .forced => 2
  | .interrupted => 3

/-- A cadence as its pattern word: bit i is set when slot i is Send (R164). -/
def cadenceWord (slots : List Bool) : Word :=
  BitVec.ofNat 32 (slots.foldr (fun b n => (if b then 1 else 0) + 2 * n) 0)

/-- The cadence of a length and a pattern word: bits at or above the length are ignored (R164). -/
def cadenceOf (len : Nat) (w : Word) : List Bool := (List.range len).map fun i => w.getLsbD i

end Sys2Proof.Machine
end

