-- ==== Sys2Proof/Machine/Flags.lean ====
section
/-! DEFINITION. The computed flags: fault causes (section 2.8), the watched conditions and the match state
(R173, R174), the multicast hold (R137) and the status lines (R182). -/

namespace Sys2Proof.Machine

/-- The port has a fault cause: the stuck-line monitor asserted, or the quality alarm set with
quality-fault enabled (section 2.8). -/
def Port.faultCause (P : Port) : Bool := P.stuck.asserted || (P.quality.alarm && P.settings.qualityFault)

/-- The five watched conditions, bit 0 up, then faulted, stuck, quality_alarm and test_sync (R173). -/
def Port.conditions (P : Port) : BitVec 5 :=
  BitVec.ofBool (decide (P.link = .test ∧ P.test.sync = .inSync)) ++ BitVec.ofBool P.quality.alarm ++
    BitVec.ofBool P.stuck.asserted ++ BitVec.ofBool (decide (P.link = .faulted)) ++
    BitVec.ofBool (decide (P.link = .up))

/-- Every condition the mask selects equals its expected value (R174). -/
def matchOf (mask expect conditions : BitVec 5) : Bool :=
  decide ((conditions ^^^ expect) &&& mask = 0)

/-- The quality alarm after a completion, with D' = max(D, A) (R33). -/
def alarmAfter (before : Bool) (figure a d : Nat) : Bool :=
  if figure < a then true else if figure ≥ max d a then false else before

/-- The multicast hold after a judgement, with Hoff' = max(Hoff, Hon + 1) (R137). -/
def holdAfter (before : Bool) (free on off : Nat) : Bool :=
  if free ≤ on then true else if free ≥ max off (on + 1) then false else before

/-- Free multicast stores (R48). -/
def State.freeMulticast (s : State) : Nat := s.poolSize - s.poolUse

/-- The multicast hold judged on the state as it stands (R137). -/
def State.judgeHold (s : State) : State :=
  { s with mcHold := holdAfter s.mcHold s.freeMulticast s.holdOn s.holdOff }

/-- The port notice flags as a word, bit p for port p (R18). -/
def State.noticeWord (s : State) : Word :=
  allPorts.foldl (fun w p => if (s.port p).noticeFlag then w ||| (1#32 <<< p.val) else w) 0

/-- The move-done flags as a word, bit d for DID d (R18). -/
def State.moveDoneWord (s : State) : Word :=
  allDids.foldl (fun w d => if (s.did d).moveDone then w ||| (1#32 <<< d.val) else w) 0

/-- The pending set is not empty (R177). -/
def State.noticePending (s : State) : Bool :=
  allPorts.any (fun p => (s.port p).noticeFlag) || allDids.any fun d => (s.did d).moveDone

/-- At least one port is FAULTED (R182). -/
def State.anyFaulted (s : State) : Bool := allPorts.any fun p => decide ((s.port p).link = .faulted)

/-- The value of a status line function, high for true (R182). -/
def State.lineValue (s : State) : LineFunction → Bool
  | .low => false
  | .high => true
  | .noticePending => s.noticePending
  | .anyFaulted => s.anyFaulted
  | .mcHold => s.mcHold

/-- The levels the lines STATUS0 and STATUS1 drive (R182). -/
def State.statusLines (s : State) : Bool × Bool := (s.lineValue s.status0, s.lineValue s.status1)

end Sys2Proof.Machine
end

