-- ==== Sys2Proof/Machine/Buffer.lean ====
section
/-! DEFINITION. Admission (chapter 3): the shared pool, the excesses, the allowance of a DID in a class,
and the judgement POOL-SET asks for. -/

namespace Sys2Proof.Machine

/-- The shared pool size that a multicast pool size and floors give (R44). -/
def sharedPoolOf (pool floorSum : Nat) : Int :=
  (Config.bufferStores : Int) - Config.class0Pool - Config.markerReserve - pool - floorSum

/-- The sum of the 32 floors (R44). -/
def State.floorSum (s : State) : Nat := (allDids.map fun d => (s.did d).floor).sum

/-- The shared pool size S (R44). -/
def State.sharedPool (s : State) : Int := sharedPoolOf s.poolSize s.floorSum

/-- U_dc, occupied and reserved together (R49). -/
def Usage.total (u : Usage) : Nat := u.occupied + u.reserved

/-- U_d, the usage of a DID summed over classes 1..3 (R49). -/
def DidState.used (D : DidState) : Nat := D.usage.c1.total + D.usage.c2.total + D.usage.c3.total

/-- The floor use of a DID, min(U_d, F_d) (R50). -/
def DidState.floorUse (D : DidState) : Nat := min D.used D.floor

/-- excess_d against a floor (R50). -/
def DidState.excessOver (D : DidState) (floor : Nat) : Nat := D.used - floor

/-- excess_d (R50). -/
def State.excess (s : State) (d : Did) : Nat := (s.did d).excessOver (s.did d).floor

/-- The sum of the excesses over all 32 DIDs (R50). -/
def State.excessSum (s : State) : Nat := (allDids.map s.excess).sum

/-- FreeShared (R50). -/
def State.freeShared (s : State) : Nat := (s.sharedPool - s.excessSum).toNat

/-- The target T_c of an exponent, rounded down (R51). -/
def targetOf (free : Nat) (e : Int) : Nat :=
  if 0 ≤ e then free * 2 ^ e.toNat else free / 2 ^ (-e).toNat

/-- The allowance from free shared space, exponent, floor, floor use and excess: floor room and shared room
together (R51). -/
def allowanceOf (free : Nat) (e : Int) (floor floorUse excess : Nat) : Nat :=
  (floor - floorUse) + min free (targetOf free e - excess)

/-- A(d,c), computed from the values of R50 on the state as it stands (R51, R53). -/
def State.allowance (s : State) (d : Did) (c : GClass) : Nat :=
  allowanceOf s.freeShared (s.classes.get c).exponent (s.did d).floor (s.did d).floorUse (s.excess d)

end Sys2Proof.Machine
end

