-- ==== Sys2Proof/Machine/Control.lean ====
section
/-! DEFINITION. Element cells, the notice cells among them, and the command queue and unit (chapter 9,
sections 10.2 and 10.3). -/

namespace Sys2Proof.Machine

/-! ### Element cells (R157) -/

/-- An element cell placed at the tail of the element list of port `p` (R110, R157). -/
def State.placeElement (s : State) (p : PortId) (f : Frame) : State :=
  { s.updPort p fun P => { P with elements := P.elements ++ [f] } with elementUse := s.elementUse + 1 }

/-- The offer of a notice: discarded when the port is not UP or the allowance is full (R157, R177). -/
def State.offerNotice (s : State) (p : PortId) (f : Frame) : State :=
  if s.isUp p && decide (s.elementUse < Config.elementAllowance) then s.placeElement p f else s

/-- The offer of a response: discarded when the port is not UP, and held by the command unit when the
allowance is full (R157, R159). -/
def State.offerResponse (s : State) (p : PortId) (f : Frame) : State :=
  if !s.isUp p then s
  else if s.elementUse < Config.elementAllowance then s.placeElement p f
  else { s with cmdUnit := .holding p f }

/-! ### Notices (R174, R176, R177) -/

/-- The match state of a port judged anew where the event changed a condition of it; the notice flag is
set where it went from true to false (R174). -/
def Port.judgeNotice (before : BitVec 5) (P : Port) : Port :=
  if P.conditions = before then P
  else
    let m := matchOf P.watchMask P.watchExpect P.conditions
    { P with watchMatch := m, noticeFlag := P.noticeFlag || (P.watchMatch && !m) }

/-- The ports whose report setting is set, in ascending order (R177). -/
def State.reportPorts (s : State) : List PortId := allPorts.filter fun p => (s.port p).settings.report

/-- One notice frame with the flags as they stand, a copy offered to each report port (R177). -/
def State.offerNotices (s : State) : State :=
  let f := noticeFrame s.noticeWord s.moveDoneWord
  s.reportPorts.foldl (fun t p => t.offerNotice p f) s

/-- The notice unit at the end of an event that led from `before` to `after`: conditions are judged
together on the state the event left, and a notice goes out when the pending set went from empty to
non-empty (R173, R174, R177). -/
def noticeStep (before after : State) : State :=
  let t := after.mapPorts fun p P => P.judgeNotice (before.port p).conditions
  if !before.noticePending && t.noticePending then t.offerNotices else t

/-! ### Commands (R158 to R160) -/

/-- A command cell from port `p`, handled within its arrival (R158). -/
def State.commandArrival (s : State) (p : PortId) (h : IngressHeader) (payload : Payload)
    (good : Bool) : State :=
  if !good then (s.countPort p .incPayloadErr).refundCredit p
  else if !s.creditOk p then s.countPort p .incC0Overrun
  else if s.cmdQueue.length ≥ Config.commandQueueSize then
    let t := s.refundCredit p
    if t.elementUse < Config.elementAllowance then
      t.placeElement p (responseFrame (payloadFrame payload) .busy [])
    else { t with cmdLost := countUp t.cmdLost }
  else
    let cell : CmdCell := { src := p, first := h.first, last := h.last, frame := payloadFrame payload }
    { s.holdCredit p with cmdQueue := s.cmdQueue ++ [cell] }

/-- The oldest command taken from the queue: its store is freed and its credit released (R159). -/
def State.takeCommand (s : State) (cmd : CmdCell) (rest : List CmdCell) : State :=
  { s.releaseCredit cmd.src with cmdQueue := rest }

/-- The answer to a command: its status, its result words and the state its effects leave. -/
structure Reply where
  status : Status
  results : List Word
  state : State

/-- A refusal: nothing is changed and there are no result words (R160). -/
def Reply.refuse (st : Status) (s : State) : Reply := { status := st, results := [], state := s }

/-- An accepted command: CLAMPED if a value was clamped, DONE otherwise (R160). -/
def Reply.accept (clamped : Bool) (results : List Word) (s : State) : Reply :=
  { status := if clamped then .clamped else .done, results := results, state := s }

/-- A command judged after its frame: permission first, then the command's own tests (R160). -/
def judgeCommand (cmd : CmdCell) (judge : CmdCell → State → Reply) (s : State) : Reply :=
  if (s.port cmd.src).settings.mayCommand then judge cmd s else Reply.refuse .denied s

/-- The command unit takes the command at the head of the queue, if it is in READY and that command is
read as `want`, processes it and offers its response (R159). Otherwise this command is not the one the
unit takes, and nothing happens (DESIGN CHOICE, log entry 6). A notice that the effects of the command raise
(R177) is offered with them, before the response, so it takes its element store first: R159 puts the effects
before the offer of the response and does not say whether the notice is one of them (DESIGN CHOICE, log
entry 8). -/
def commandStep (want : Option Code) (judge : CmdCell → State → Reply) (s : State) : State :=
  match s.cmdUnit, s.cmdQueue with
  | .ready, cmd :: rest =>
    if cmd.reading = want then
      let r := judge cmd (s.takeCommand cmd rest)
      r.state.offerResponse cmd.src (responseFrame cmd.frame r.status r.results)
    else s
  | _, _ => s

/-- A held response is offered again when the element allowance has room; when it is placed, the unit
returns to READY (R159). -/
def State.offerHeld (s : State) : State :=
  match s.cmdUnit with
  | .ready => s
  | .holding p f =>
    if !s.isUp p then { s with cmdUnit := .ready }
    else if s.elementUse < Config.elementAllowance then { s.placeElement p f with cmdUnit := .ready }
    else s

/-- The element allowance use falls by `n`. At a fall the held response is offered again (R157, R159), within the
event that frees the store. R158 leaves open whether a BUSY of a full queue takes a freed store first: here the
held response always does (DESIGN CHOICE, log entry 8). -/
def State.freeElements (s : State) (n : Nat) : State :=
  if n = 0 then s else { s with elementUse := s.elementUse - n }.offerHeld

/-- A response held for port `p` is discarded, and the unit returns to READY (R159). -/
def State.dropHeld (s : State) (p : PortId) : State :=
  match s.cmdUnit with
  | .holding q _ => if q = p then { s with cmdUnit := .ready } else s
  | .ready => s

/-- The element cells of port `p` are discarded, and a response held for it; the allowance falls by one for
each cell (R125, R157, R159). -/
def State.dropElements (s : State) (p : PortId) : State :=
  ((s.dropHeld p).updPort p fun P => { P with elements := [] }).freeElements (s.port p).elements.length

/-- HELD_RESPONSE_OFFER: the held response is offered again (R159). The falls of the allowance use offer it in
their own event already (log entry 4). -/
def execHeldResponseOffer (s : State) : Host.Outcome State Fault Refusal := .next s.offerHeld

end Sys2Proof.Machine
end

