-- ==== Sys2Proof/Machine/Grants.lean ====
section
/-! DEFINITION. Bids and grants (chapter 4): bid queues, refusals, grant records, outboxes, the arbiter,
expiry, and the grant engine's share of port events and map changes. -/

namespace Sys2Proof.Machine

/-! ### Outboxes (R77, R79) -/

/-- The outbox entry is for (d, c). -/
def GrantEntry.isFor (e : GrantEntry) (d : Did) (c : GClass) : Bool := decide (e.did = d ∧ e.cls = c)

/-- The outbox without its entry for (d, c) (R79). -/
def outboxWithout (d : Did) (c : GClass) (box : List GrantEntry) : List GrantEntry :=
  box.filter fun e => !e.isFor d c

/-- The outbox with the quota of its entry for (d, c) lowered to at most `n` (R79). -/
def outboxCapped (d : Did) (c : GClass) (n : Nat) (box : List GrantEntry) : List GrantEntry :=
  box.map fun e => if e.isFor d c then { e with quota := min e.quota n } else e

/-- A grant of `q` placed: added to the entry for (d, c), or appended (R77). -/
def outboxPlace (d : Did) (c : GClass) (q : Nat) (box : List GrantEntry) : List GrantEntry :=
  if box.any fun e => e.isFor d c then
    box.map fun e => if e.isFor d c then { e with quota := e.quota + q } else e
  else box ++ [{ cls := c, did := d, quota := q }]

/-- A change of the grant outbox of port `p`. -/
def State.updOutbox (s : State) (p : PortId) (f : List GrantEntry → List GrantEntry) : State :=
  s.updPort p fun P => { P with grantOutbox := f P.grantOutbox }

/-! ### Records (R71) -/

/-- The remaining count of a record, 0 when none is open. -/
def remainingOf : Option GrantRec → Nat
  | none => 0
  | some g => g.remaining

/-- The record (s, d, c) closes, its remaining count is returned and its unsent entry is withdrawn
(R59, R71, R79). -/
def State.closeGrant (s : State) (p : PortId) (d : Did) (c : GClass) : State :=
  match s.grant p d c with
  | none => s
  | some g =>
    ((s.updUsage d c (Usage.unreserve g.remaining)).setGrant p d c none).updOutbox p (outboxWithout d c)

/-- The remaining count of the record (s, d, c) is cut to `n`; the difference is returned (R68). -/
def State.cutGrant (s : State) (p : PortId) (d : Did) (c : GClass) (n : Nat) : State :=
  match s.grant p d c with
  | none => s
  | some g =>
    if n < g.remaining then
      ((s.updUsage d c (Usage.unreserve (g.remaining - n))).setGrant p d c
        (some { g with remaining := n })).updOutbox p (outboxCapped d c n)
    else s

/-! ### Bid queues (R64 to R68) -/

/-- The entry of source `p` in a bid queue. -/
def bidOf (p : PortId) (q : List BidEntry) : Option BidEntry := q.find? fun e => decide (e.src = p)

/-- The bid queue without the entry of source `p`; the entries behind it move up. -/
def bidsWithout (p : PortId) (q : List BidEntry) : List BidEntry := q.filter fun e => !decide (e.src = p)

/-- A bid of `n` entered: the entry of the source keeps its place and takes `n`, or a new one is
appended (R66). -/
def bidsWith (p : PortId) (n : Nat) (q : List BidEntry) : List BidEntry :=
  if (bidOf p q).isSome then q.map fun e => if e.src = p then { e with backlog := n } else e
  else q ++ [{ src := p, backlog := n }]

/-- The backlog of source `p` lowered by one; at 0 the entry is removed (R80, R81). -/
def bidsLowered (p : PortId) (q : List BidEntry) : List BidEntry :=
  q.filterMap fun e =>
    if e.src = p then (if e.backlog ≤ 1 then none else some { e with backlog := e.backlog - 1 }) else some e

/-- A bid of 0: the entry is removed and the record closes (R67). -/
def State.withdrawBid (s : State) (p : PortId) (d : Did) (c : GClass) : State :=
  if (bidOf p (s.bids d c)).isSome then (s.setBids d c (bidsWithout p (s.bids d c))).closeGrant p d c else s

/-- A bid of 1..255 entered, and the record cut where the backlog is below it (R66, R68). -/
def State.enterBid (s : State) (p : PortId) (d : Did) (c : GClass) (n : Nat) : State :=
  (s.setBids d c (bidsWith p n (s.bids d c))).cutGrant p d c n

/-- One valid bid slot of a header taken from port `p` (R65). -/
def State.takeBid (s : State) (p : PortId) (b : BidSlot) : State :=
  if !b.valid then s
  else match b.cls.granted? with
    | none => s.countPort p .incBadBid
    | some c =>
      if b.count = 0 then s.withdrawBid p b.did c
      else match s.portOf b.did with
        | none => s.refuse p { cls := c, did := b.did, reason := .unmapped }
        | some q =>
          if s.isUp q then s.enterBid p b.did c b.count
          else s.refuse p { cls := c, did := b.did, reason := .destDown }

/-! ### Cells under a grant (R80, R81) -/

/-- A DATA cell admitted while the record (s, d, c) is open (R55, R80). -/
def State.admitUnderGrant (s : State) (p : PortId) (d : Did) (c : GClass) (g : GrantRec) : State :=
  let t := (s.updUsage d c Usage.fill).setBids d c (bidsLowered p (s.bids d c))
  let n := g.remaining - 1
  if n = 0 then (t.setGrant p d c none).updOutbox p (outboxWithout d c)
  else (t.setGrant p d c (some { g with remaining := n })).updOutbox p (outboxCapped d c n)

/-- A late DATA cell admitted against the allowance (R56, R81). -/
def State.admitLate (s : State) (p : PortId) (d : Did) (c : GClass) : State :=
  (s.updUsage d c Usage.admitLate).setBids d c (bidsLowered p (s.bids d c))

/-! ### The arbiter (R73 to R77) -/

/-- The need of a bid entry: its backlog less the remaining count of its record (R64). -/
def State.need (s : State) (d : Did) (c : GClass) (e : BidEntry) : Nat :=
  e.backlog - remainingOf (s.grant e.src d c)

/-- The grant outbox of port `p` can take a grant for (d, c): it has a free entry, or holds an unsent
entry for the same (d, c) (R73). -/
def State.outboxTakes (s : State) (p : PortId) (d : Did) (c : GClass) : Bool :=
  decide ((s.port p).grantOutbox.length < Config.grantOutboxSize) ||
    (s.port p).grantOutbox.any fun e => e.isFor d c

/-- The entry qualifies (R73). -/
def State.qualifies (s : State) (d : Did) (c : GClass) (e : BidEntry) : Bool :=
  decide (1 ≤ s.need d c e) && s.outboxTakes e.src d c

/-- The DID is MAPPED to a port that is UP (R73). -/
def State.issuable (s : State) (d : Did) : Bool :=
  match (s.did d).map with
  | .mapped p => s.isUp p
  | _ => false

/-- The entry the arbiter of (d, c) would grant, none while its issue condition fails (R73, R74). -/
def State.candidate (s : State) (d : Did) (c : GClass) : Option BidEntry :=
  if s.issuable d && decide (1 ≤ s.allowance d c) then (s.bids d c).find? (s.qualifies d c) else none

/-- The quota of a grant to an entry (R54, R75). -/
def State.quota (s : State) (d : Did) (c : GClass) (e : BidEntry) : Nat :=
  min (s.need d c e) (min (s.classes.get c).grantMax (s.allowance d c))

/-- A grant of `q` issued to entry `e` (R75, R77). -/
def State.issueGrant (s : State) (d : Did) (c : GClass) (e : BidEntry) (q : Nat) : State :=
  let r : GrantRec := { remaining := remainingOf (s.grant e.src d c) + q, deadline := none }
  (((s.updUsage d c (Usage.reserve q)).setGrant e.src d c (some r)).updOutbox e.src
    (outboxPlace d c q)).setBids d c (bidsWithout e.src (s.bids d c) ++ [e])

/-- The arbiter of (d, c) judged once: it issues one grant if its issue condition holds (R76). -/
def State.arbitrate (s : State) (d : Did) (c : GClass) : State :=
  match s.candidate d c with
  | none => s
  | some e => s.issueGrant d c e (s.quota d c e)

/-- GRANT_ISSUE (R75, R76). -/
def execGrantIssue (d : Did) (c : GClass) (s : State) : Host.Outcome State Fault Refusal :=
  .next (s.arbitrate d c)

/-! ### Expiry (R83) -/

/-- The element's time reaches the deadline of the record (s, d, c), if it has one: the clock stands at
that time, and the record expires (R83). -/
def State.expire (s : State) (p : PortId) (d : Did) (c : GClass) : State :=
  match s.grant p d c with
  | some { remaining := _, deadline := some t } =>
    ({ s with now := max s.now t }.closeGrant p d c).countPort p .incGrantExpired
  | _ => s

/-! ### Port events and map changes (R85 to R89) -/

/-- The port-down of source port `p`: its bid entries are removed, its records closed with their
remaining counts returned, and its outboxes emptied (R85). -/
def State.grantSourceDown (s : State) (p : PortId) : State :=
  let t := s.mapDids fun d D =>
    { D with bids := D.bids.map fun _ q => bidsWithout p q,
             usage := D.usage.map fun c u => u.unreserve (remainingOf (s.grant p d c)) }
  t.updPort p fun P =>
    { P with grants := tabMap (fun _ _ => PerG.const none) P.grants, grantOutbox := [], refusalOutbox := [] }

/-- The record of one source for (d, c) revoked, with a REVOKED refusal (R86). -/
def State.revokeOne (s : State) (d : Did) (c : GClass) (p : PortId) : State :=
  match s.grant p d c with
  | none => s
  | some _ => (s.closeGrant p d c).refuse p { cls := c, did := d, reason := .revoked }

/-- The grants of (d, c) revoked (R86). -/
def State.revokeClass (s : State) (d : Did) (c : GClass) : State :=
  allPorts.foldl (fun t p => t.revokeOne d c p) s

/-- The grants of DID `d` revoked (R86). -/
def State.revoke (s : State) (d : Did) : State := GClass.all.foldl (fun t c => t.revokeClass d c) s

/-- Every entry of the queue (d, c) removed in queue order, with a refusal to its source (R87, R89). -/
def State.removeBids (s : State) (d : Did) (c : GClass) (why : Reason) : State :=
  ((s.bids d c).foldl (fun t e => t.refuse e.src { cls := c, did := d, reason := why }) s).setBids d c []

/-- The port-down of the port DID `d` maps to: per class, grants revoked and bid entries removed with
DEST_DOWN refusals (R87). -/
def State.grantDestDown (s : State) (d : Did) : State :=
  GClass.all.foldl (fun t c => (t.revokeClass d c).removeBids d c .destDown) s

/-- The bid queues of DID `d` judged against its entry after a map change: kept while its port is UP,
and otherwise removed with UNMAPPED or DEST_DOWN refusals (R89). -/
def State.rejudgeBids (s : State) (d : Did) : State :=
  match s.portOf d with
  | none => GClass.all.foldl (fun t c => t.removeBids d c .unmapped) s
  | some p => if s.isUp p then s else GClass.all.foldl (fun t c => t.removeBids d c .destDown) s

end Sys2Proof.Machine
end

