-- ==== Sys2Proof/Machine/Arrival.lean ====
section
/-! DEFINITION. Arrival and train tracking (chapter 5): the path of a unicast or class-0 cell, the train
table, and the owed-marker list. -/

namespace Sys2Proof.Machine

/-- The outcome of a candidate (R95): admitted, or refused. -/
def trainAfterAdmit (last : Bool) : TrainState := if last then .idle else .open

/-- The counter of a refused or dropped cell (R97, R108). -/
abbrev Drop := PortCounters → PortCounters

/-- A refused candidate: its counter, its train transition, and the marker the table asks for (R95). -/
def State.refuseCandidate (s : State) (p : PortId) (d : Did) (c : Cls) (first last : Bool)
    (why : Drop) : State :=
  let t := s.countPort p why
  if !last then t.setTrain p d c .broken
  else if first && decide (s.train p d c = .idle) then t
  else (t.setTrain p d c .idle).makeMark { src := p, did := d, cls := c, mc := false }

/-- An admitted cell: appended to its queue, its train transition, and an owed marker cancelled where the
cell is a FIRST (R92, R95, R96). -/
def State.admitCell (s : State) (p : PortId) (d : Did) (c : Cls) (x : StoredCell) : State :=
  let t := (s.enqueue d c (.cell x)).setTrain p d c (trainAfterAdmit x.last)
  if x.first then t.cancelMark { src := p, did := d, cls := c, mc := false } else t

/-- The accounting of a candidate DATA cell (R98): under an open record, or against the allowance. -/
def State.offerData (s : State) (p : PortId) (d : Did) (c : GClass) (x : StoredCell) : State :=
  match s.grant p d c with
  | some g => (s.admitUnderGrant p d c g).admitCell p d c.cls x
  | none =>
    if 1 ≤ s.allowance d c then (s.admitLate p d c).admitCell p d c.cls x
    else s.refuseCandidate p d c.cls x.first x.last .incLate

/-- The accounting of a candidate class-0 cell by credit (R99). -/
def State.offerClass0 (s : State) (p : PortId) (d : Did) (x : StoredCell) : State :=
  if s.creditOk p then (s.holdCredit p).admitCell p d .c0 x
  else s.refuseCandidate p d .c0 x.first x.last .incC0Overrun

/-- A class-0 cell dropped or refused otherwise than by the credit test has its credit returned (R99). -/
def State.refundIfClass0 (s : State) (p : PortId) (c : Cls) : State :=
  match c with
  | .c0 => s.refundCredit p
  | _ => s

/-- A cell dropped at the train step is counted by its position, or PAYLOAD_ERR if refused at the payload
check (R95). -/
def dropCounter (refused : Bool) (why : Drop) : Drop := if refused then .incPayloadErr else why

/-- The train step and accounting of a unicast cell whose DID is reachable (R92 steps 2 to 4, R95).
`refused` says that the payload check refused the cell. -/
def State.trainStep (s : State) (p : PortId) (d : Did) (c : Cls) (x : StoredCell) (refused : Bool) : State :=
  if x.first || decide (s.train p d c = .open) then
    if refused then (s.refuseCandidate p d c x.first x.last .incPayloadErr).refundIfClass0 p c
    else match c.granted? with
      | some g => s.offerData p d g x
      | none => s.offerClass0 p d x
  else
    match s.train p d c with
    | .broken =>
      let t := (s.countPort p (dropCounter refused .incBroken)).refundIfClass0 p c
      if x.last then (t.setTrain p d c .idle).makeMark { src := p, did := d, cls := c, mc := false } else t
    | _ => (s.countPort p (dropCounter refused .incOrphan)).refundIfClass0 p c

/-- The payload-error mode of the receiving port refuses a cell with a failed payload check (R6). -/
def State.refusesPayload (s : State) (p : PortId) (good : Bool) : Bool :=
  !good && decide ((s.port p).settings.payloadMode = .drop)

/-- The cell as it is stored: poison is set where a failed payload check was forwarded (R6, R92). -/
def storedOf (p : PortId) (h : IngressHeader) (payload : Payload) (good : Bool) : StoredCell :=
  { src := p, first := h.first, last := h.last, count := h.count, poison := !good, payload := payload }

/-- A DATA cell of class 1..3, or a CTRL cell of class 0 to a DID, from port `p` (R92, R93). -/
def State.unicastArrival (s : State) (p : PortId) (c : Cls) (h : IngressHeader) (payload : Payload)
    (good : Bool) : State :=
  let d := h.did
  match s.portOf d with
  | none => (s.countDid d .incUnmapped).refundIfClass0 p c
  | some q =>
    if s.isUp q then s.trainStep p d c (storedOf p h payload good) (s.refusesPayload p good)
    else (s.countDid d .incDestDown).refundIfClass0 p c

/-! ### The owed-marker list (R102) -/

/-- The owed-marker list after entries whose DID is not mapped to a port that is UP are discarded from
its head (R102). -/
def State.owedServable (s : State) : List MarkerKey := s.owedMarkers.dropWhile fun k => !s.reachable k.did

/-- One returned marker store serves the list: it places the oldest owed marker whose DID is mapped to a
port that is UP, discarding those ahead of it that are not (R47, R102). With the marker use at 64 no
store has been returned. -/
def State.serveOwed (s : State) : State :=
  if s.markerUse < Config.markerReserve then
    match s.owedServable with
    | [] => { s with owedMarkers := [] }
    | k :: rest => { s with owedMarkers := rest }.placeMark k
  else s

/-- A marker store is returned: the marker use falls by one, and the store is offered to the owed-marker list
at once (R47, R102). -/
def State.returnMark (s : State) : State := { s with markerUse := s.markerUse - 1 }.serveOwed

/-! ### Port events and map changes (R104 to R106) -/

/-- The marker keys a port-down of source `p` owes: its OPEN and BROKEN trains and the snapshots of its
multicast trains, less the DIDs mapped to `p`, in ascending order of DID, then class, unicast before
multicast (R104, R139). -/
def State.sourceDownKeys (s : State) (p : PortId) : List MarkerKey :=
  (allDids.filter fun d => !s.mapsTo d p).flatMap fun d =>
    Cls.all.flatMap fun c =>
      (if s.train p d c = .idle then [] else [{ src := p, did := d, cls := c, mc := false }]) ++
      (match c.granted? with
       | none => []
       | some g =>
         let r := s.mcTrain p g
         if decide (r.state ≠ .idle) && DidSet.has r.snapshot d then
           [{ src := p, did := d, cls := c, mc := true }] else [])

/-- The arrival unit at the port-down of source `p`: markers made, and every entry of `p` IDLE (R104). -/
def State.arrivalSourceDown (s : State) (p : PortId) : State :=
  (s.makeMarks (s.sourceDownKeys p)).updPort p fun P =>
    { P with trains := tabMap (fun _ _ => PerClass.const .idle) P.trains }

/-- Every train entry of DID `d`, of every source and class, replaced by its image. -/
def State.mapTrainsOf (s : State) (d : Did) (f : TrainState → TrainState) : State :=
  s.mapPorts fun _ P => { P with trains := P.trains.set d ((P.trains[d]).map fun _ t => f t) }

/-- Every train entry of DID `d` set to IDLE (R105, R106). -/
def State.idleTrainsOf (s : State) (d : Did) : State := s.mapTrainsOf d fun _ => .idle

/-- Every OPEN train entry of DID `d` set to BROKEN (R106, R150). -/
def State.breakTrainsOf (s : State) (d : Did) : State :=
  s.mapTrainsOf d fun t => if t = .open then .broken else t

/-- The arrival unit at the port-down of the port DID `d` maps to (R105). -/
def State.arrivalDestDown (s : State) (d : Did) : State := (s.idleTrainsOf d).discardMarksOf d

end Sys2Proof.Machine
end

