-- ==== Sys2Proof/Machine/Multicast.lean ====
section
/-! DEFINITION. Multicast (chapter 7): the path of an MDATA cell, snapshots, storage and pruning, the
fan-out of stored cells, and the unit's share of port events and map changes. -/

namespace Sys2Proof.Machine

/-! ### Stored cells (R132, R136) -/

/-- The multicast reference count of a queue changed (R135). -/
def State.updRefs (s : State) (d : Did) (c : GClass) (f : Nat → Nat) : State :=
  s.updDid d fun D => { D with mcRefs := D.mcRefs.set c (f (D.mcRefs.get c)) }

/-- The stored cell a reference names. -/
def State.mcCell (s : State) (name : Nat) : Option McCell := s.mcCells.find? fun m => decide (m.name = name)

/-- The fan-out of a stored cell falls by one; at 0 its store is returned and the hold is judged
(R136, R137). -/
def State.releaseRef (s : State) (name : Nat) : State :=
  match s.mcCell name with
  | none => s
  | some m =>
    if m.fanOut ≤ 1 then
      { s with mcCells := s.mcCells.filter fun x => !decide (x.name = name),
               poolUse := s.poolUse - 1 }.judgeHold
    else
      { s with mcCells := s.mcCells.map fun x =>
          if x.name = name then { x with fanOut := x.fanOut - 1 } else x }

/-- One reference appended to the queue (d, c) (R132). -/
def State.appendRef (s : State) (c : GClass) (name : Nat) (d : Did) : State :=
  (s.enqueue d c.cls (.mref name)).updRefs d c (· + 1)

/-- A cell stored once, with one reference in the queue of each receiver in ascending order (R132). -/
def State.storeMulticast (s : State) (c : GClass) (receivers : DidSet) (x : StoredCell) : State :=
  let ds := DidSet.members receivers
  let m : McCell := { name := s.mcNext, cell := x, fanOut := ds.length }
  let t : State := { s with mcCells := s.mcCells ++ [m], mcNext := s.mcNext + 1, poolUse := s.poolUse + 1 }
  (ds.foldl (fun u d => u.appendRef c s.mcNext d) t).judgeHold

/-! ### Receivers (R131, R133) -/

/-- The members of a group eligible for a FIRST from port `p` (R131). -/
def State.eligible (s : State) (p : PortId) (g : Group) : DidSet :=
  DidSet.ofPred fun d => DidSet.has g.members d && s.reachable d && !(g.excludeSource && s.mapsTo d p)

/-- The queue (d, c) holds the multicast queue limit of class c or more (R131, R133, R135). -/
def State.atLimit (s : State) (c : GClass) (d : Did) : Bool :=
  decide ((s.classes.get c).mcLimit ≤ (s.did d).mcRefs.get c)

/-- The receivers the limit leaves. -/
def State.unpruned (s : State) (c : GClass) (m : DidSet) : DidSet :=
  DidSet.ofPred fun d => DidSet.has m d && !s.atLimit c d

/-- The receivers the limit prunes. -/
def State.pruned (s : State) (c : GClass) (m : DidSet) : DidSet :=
  DidSet.ofPred fun d => DidSet.has m d && s.atLimit c d

/-- MC_PRUNE of each member of a set (R131, R133). -/
def State.countPrunes (s : State) (m : DidSet) : State :=
  s.mapDids fun d D => if DidSet.has m d then { D with counters := D.counters.incMcPrune } else D

/-- The multicast marker keys of source `p` and class `c` for a set of members, in ascending order. -/
def mcKeys (p : PortId) (c : GClass) (m : DidSet) : List MarkerKey :=
  (DidSet.members m).map fun d => { src := p, did := d, cls := c.cls, mc := true }

/-! ### Train transitions (R130, R134) -/

/-- The train ends with one marker for each member of the snapshot the record holds (R134). -/
def State.mcEndWithMarks (s : State) (p : PortId) (c : GClass) : State :=
  (s.makeMarks (mcKeys p c (s.mcTrain p c).snapshot)).setMcTrain p c .idle

/-- A refused cell: its counter, and the transition of a refused cell (R130). -/
def State.mcRefuse (s : State) (p : PortId) (c : GClass) (first last : Bool) (why : Drop) : State :=
  let t := s.countPort p why
  let r := s.mcTrain p c
  if !last then t.setMcTrain p c { r with state := .broken }
  else if first && decide (r.state = .idle) then t.setMcTrain p c .idle
  else t.mcEndWithMarks p c

/-- A cell that is not a FIRST and finds no OPEN train is dropped; a LAST in BROKEN becomes markers
(R129, R130). `refused` says that the payload check refused the cell. -/
def State.mcDrop (s : State) (p : PortId) (c : GClass) (last refused : Bool) : State :=
  match (s.mcTrain p c).state with
  | .broken =>
    let t := s.countPort p (dropCounter refused .incBroken)
    if last then t.mcEndWithMarks p c else t
  | _ => s.countPort p (dropCounter refused .incOrphan)

/-- The record after an accepted cell: OPEN with its snapshot, or IDLE after a LAST (R130). -/
def mcAfterAccept (last : Bool) (snapshot : DidSet) : McTrain :=
  if last then .idle else { state := .open, snapshot := snapshot }

/-- An accepted FIRST: its snapshot is put in place, members of the old snapshot that are not in it get
markers, and owed markers of members that received a reference are cancelled (R131). `stored` is the set
of members that received a reference. -/
def State.mcAcceptFirst (s : State) (p : PortId) (c : GClass) (last : Bool) (stored : DidSet) : State :=
  let old := (s.mcTrain p c).snapshot
  let t := (mcKeys p c stored).foldl State.cancelMark s
  (t.makeMarks (mcKeys p c (old &&& ~~~ stored))).setMcTrain p c (mcAfterAccept last stored)

/-- An accepted cell that is not a FIRST: pruned members leave the snapshot with a marker each (R133), in
ascending order of DID. R133 states no order, where R131 and R134 do (DESIGN CHOICE, log entry 8). -/
def State.mcAcceptLater (s : State) (p : PortId) (c : GClass) (last : Bool) (gone : DidSet) : State :=
  let kept := (s.mcTrain p c).snapshot &&& ~~~ gone
  (s.makeMarks (mcKeys p c gone)).setMcTrain p c (mcAfterAccept last kept)

/-- A taken cell with its receivers: refused for MC_POOL, stored to no receiver, or stored (R132). -/
def State.mcTake (s : State) (p : PortId) (c : GClass) (x : StoredCell) (receivers : DidSet) : State :=
  if receivers ≠ 0 ∧ s.freeMulticast = 0 then s.mcRefuse p c x.first x.last .incMcPool
  else
    let left := s.unpruned c receivers
    let gone := s.pruned c receivers
    let t := s.countPrunes gone
    let u := if left = 0 then t.countPort p .incMcNoMember else t.storeMulticast c left x
    if x.first then u.mcAcceptFirst p c x.last left else u.mcAcceptLater p c x.last gone

/-- An MDATA cell of class `c` from port `p` (R129). -/
def State.multicastArrival (s : State) (p : PortId) (c : GClass) (h : IngressHeader) (payload : Payload)
    (good : Bool) : State :=
  let x := storedOf p h payload good
  let refused := s.refusesPayload p good
  let g := s.groups[h.group]
  if x.first then
    if refused then s.mcRefuse p c true x.last .incPayloadErr
    else if !g.valid then s.mcRefuse p c true x.last .incGroupInvalid
    else s.mcTake p c x (s.eligible p g)
  else if (s.mcTrain p c).state = .open then
    if refused then s.mcRefuse p c false x.last .incPayloadErr
    else s.mcTake p c x (s.mcTrain p c).snapshot
  else s.mcDrop p c x.last refused

/-! ### Port events and map changes (R139, R140) -/

/-- The multicast unit at the port-down of source `p`: every record of `p` IDLE with an empty snapshot.
Its markers are made by the arrival unit, in the order of R104 (R139). -/
def State.mcSourceDown (s : State) (p : PortId) : State :=
  s.updPort p fun P => { P with mcTrains := .const .idle }

/-- DID `d` leaves every snapshot, without a marker (R140). -/
def State.mcForget (s : State) (d : Did) : State :=
  s.mapPorts fun _ P =>
    { P with mcTrains := P.mcTrains.map fun _ r => { r with snapshot := DidSet.without r.snapshot d } }

end Sys2Proof.Machine
end

