-- ==== Sys2Proof/Machine/Patterns.lean ====
section
/-! DEFINITION. Link test patterns (chapter 11), bit by bit: the generator, the checker with its search,
its blocks and its error count, the timebase, the short form, and the start and stop of a test. -/

namespace Sys2Proof.Machine

/-! ### The patterns (R184) -/

/-- The next bit of a shift-register pattern, from the bits before it: bit `i` of the register is the bit
`i + 1` positions before. 0 for a pattern that has no register. -/
def Pattern.recur (k : Pattern) (reg : BitVec 31) : Bool :=
  match k with
  | .p7 => xor (reg.getLsbD 5) (reg.getLsbD 6)
  | .p23 => xor (reg.getLsbD 17) (reg.getLsbD 22)
  | .p31 => xor (reg.getLsbD 27) (reg.getLsbD 30)
  | .off | .user => false

/-- The bits a shift-register checker loads as its seed (R185). -/
def Pattern.seedLength : Pattern → Nat
  | .p7 => 7
  | .p23 => 23
  | .p31 => 31
  | .off | .user => 0

/-- The register after one more bit. -/
def shiftIn (reg : BitVec 31) (b : Bool) : BitVec 31 := (reg <<< 1) ||| (BitVec.ofBool b).setWidth 31

/-- The next bit of a generator or checker at a register and a USER position (R184). -/
def Pattern.nextBit (k : Pattern) (user : BitVec 64) (reg : BitVec 31) (pos : Nat) : Bool :=
  match k with
  | .user => user.getLsbD pos
  | _ => k.recur reg

/-! ### The generator (R184) -/

/-- One generator bit, as sent, and the unit after it. -/
def PatternUnit.genBit (u : PatternUnit) : Bool × PatternUnit :=
  let raw := u.settings.genPattern.nextBit u.settings.user u.genReg u.genPos
  (xor raw u.settings.genInvert, { u with genReg := shiftIn u.genReg raw, genPos := (u.genPos + 1) % 64 })

/-- The next `n` generator bits, as sent, and the unit after them. -/
def PatternUnit.genBits : Nat → PatternUnit → List Bool × PatternUnit
  | 0, u => ([], u)
  | n + 1, u =>
    let (b, v) := u.genBit
    let (bs, w) := PatternUnit.genBits n v
    (b :: bs, w)

/-! ### The checker (R185 to R187) -/

/-- The error count raised by one; it stays at 2^48 - 1 (R187). -/
def errorUp (c : BitVec 48) : BitVec 48 := if c = BitVec.allOnes 48 then c else c + 1

/-- The checker enters IN_SYNC (R185). -/
def PatternUnit.enterSync (u : PatternUnit) : PatternUnit :=
  { u with sync := .inSync, syncEver := true, badRun := 0, blockBits := 0, blockErrors := 0 }

/-- The checker goes back to SEARCHING and seeds itself anew (R186). -/
def PatternUnit.loseSync (u : PatternUnit) : PatternUnit :=
  { u with sync := .searching, badRun := 0, seeded := 0, matchRun := 0, chkPos := 0, blockBits := 0,
           blockErrors := 0 }

/-- A match in SEARCHING: the run rises, and at 64 the checker is in sync (R185). -/
def PatternUnit.searchMatch (u : PatternUnit) : PatternUnit :=
  let v := { u with matchRun := u.matchRun + 1 }
  if v.matchRun ≥ Config.syncMatches then v.enterSync else v

/-- One bit taken in SEARCHING, after inversion (R185). -/
def PatternUnit.searchBit (u : PatternUnit) (b : Bool) : PatternUnit :=
  let k := u.settings.chkPattern
  match k with
  | .user =>
    if b = u.settings.user.getLsbD u.chkPos then
      { u with chkPos := (u.chkPos + 1) % 64 }.searchMatch
    else { u with matchRun := 0 }
  | _ =>
    if u.seeded < k.seedLength then { u with seeded := u.seeded + 1, chkReg := shiftIn u.chkReg b }
    else if b = k.recur u.chkReg then { u with chkReg := shiftIn u.chkReg b }.searchMatch
    else { u with matchRun := 0, seeded := 0 }

/-- The end of a 128-bit block in IN_SYNC (R186). The run stays within 0..4 when sync-mask holds sync. -/
def PatternUnit.endBlock (u : PatternUnit) : PatternUnit :=
  let run := if u.blockErrors > Config.testBlockErrors then u.badRun + 1 else 0
  let v := { u with badRun := min run Config.badBlocksToLose, blockBits := 0, blockErrors := 0 }
  if run ≥ Config.badBlocksToLose ∧ ¬ (u.settings.syncMask ∧ u.syncEver) then v.loseSync else v

/-- One bit taken in IN_SYNC, after inversion: compared with the prediction, which runs on by itself
(R185, R186). -/
def PatternUnit.syncBit (u : PatternUnit) (b : Bool) : PatternUnit :=
  let want := u.settings.chkPattern.nextBit u.settings.user u.chkReg u.chkPos
  let bad := xor b want
  let v := { u with
    chkReg := shiftIn u.chkReg want, chkPos := (u.chkPos + 1) % 64,
    errorCount := if bad then errorUp u.errorCount else u.errorCount,
    blockErrors := if bad then u.blockErrors + 1 else u.blockErrors,
    blockBits := u.blockBits + 1 }
  if v.blockBits ≥ Config.testBlockBits then v.endBlock else v

/-- The length of a counting period, none for continuous (R183). -/
def Timebase.period : Timebase → Option Nat
  | .continuous => none
  | .bits24 => some (2 ^ 24)
  | .bits32 => some (2 ^ 32)
  | .bits40 => some (2 ^ 40)

/-- The timebase progress after one bit taken, with the period completion it may bring (R187). -/
def PatternUnit.advance (u : PatternUnit) : PatternUnit :=
  let n := u.progress + 1
  match u.settings.timebase.period with
  | none => { u with progress := n }
  | some t =>
    if n ≥ t then { u with lastResult := u.errorCount, errorCount := 0, progress := 0 }
    else { u with progress := n }

/-- One received bit handed to the checker (R185 to R187). With the checker off, and before the first slot of
the test (R183), nothing is taken. -/
def PatternUnit.takeBit (u : PatternUnit) (raw : Bool) : PatternUnit :=
  if u.settings.chkPattern = .off ∨ u.running = false then u
  else
    let b := xor raw u.settings.chkInvert
    (match u.sync with
     | .searching => u.searchBit b
     | .inSync => u.syncBit b).advance

/-! ### Start and stop (R183, R189) -/

/-- The pattern unit as TEST-START leaves it: the settings given, and the test started afresh, to run from the
first slot on (R183). -/
def PatternUnit.start (t : TestSettings) : PatternUnit :=
  { settings := t, running := false, sync := .searching, syncEver := false, errorCount := 0, progress := 0,
    lastResult := 0, badRun := 0, genReg := BitVec.allOnes 31, genPos := 0, chkReg := 0, chkPos := 0, seeded := 0,
    matchRun := 0, blockBits := 0, blockErrors := 0 }

/-- The first slot after the start of a test: the generator and the checker begin (R183). -/
def PatternUnit.begin (u : PatternUnit) : PatternUnit := { u with running := true }

/-- The pattern unit at an exit from TEST: it stops, and the results and settings are kept (R189). -/
def PatternUnit.stop (u : PatternUnit) : PatternUnit :=
  { u with running := false, sync := .searching, badRun := 0 }

/-! ### The short form (R188) -/

/-- The smallest exponent at or above `e` whose mantissa fits, within `fuel` tries (R188). -/
def shortExp (count : Nat) : Nat → Nat → Option Nat
  | 0, _ => none
  | fuel + 1, e => if count / 4 ^ e ≤ 31 then some e else shortExp count fuel (e + 1)

/-- The short form byte e × 32 + m of a count (R188). -/
def shortForm (count : Nat) : Nat :=
  match shortExp count 8 0 with
  | some e => e * 32 + count / 4 ^ e
  | none => 7 * 32 + 31

/-! ### The checker's steps -/

/-- The checker of port `p` takes received bits one after another while the port is in TEST. At a bit that
changes the sync state, the notice unit judges the test_sync condition (R174, R186). The bits handed over
before the first SLOT of the port in its test are not taken (R183; the slot that counts is the port's own
next one, DEDUCED, log entry 12). -/
def State.takeTestBits (p : PortId) : List Bool → State → State
  | [], s => s
  | b :: bs, s =>
    if (s.port p).link = .test then
      let t := s.updPort p fun P => { P with test := P.test.takeBit b }
      State.takeTestBits p bs
        (if (t.port p).test.sync = (s.port p).test.sync then t else noticeStep s t)
    else s

/-- CHECKER_SYNC (R185). -/
def execCheckerSync (p : PortId) (bits : List Bool) (s : State) : Host.Outcome State Fault Refusal :=
  .next (s.takeTestBits p bits)

/-- TEST_BLOCK_END (R186). -/
def execTestBlockEnd (p : PortId) (bits : List Bool) (s : State) : Host.Outcome State Fault Refusal :=
  .next (s.takeTestBits p bits)

/-- TIMEBASE_COMPLETION (R187). -/
def execTimebaseCompletion (p : PortId) (bits : List Bool) (s : State) :
    Host.Outcome State Fault Refusal :=
  .next (s.takeTestBits p bits)

end Sys2Proof.Machine
end

