-- ==== Sys2Proof/Machine/Egress.lean ====
section
/-! DEFINITION. Egress (chapter 6): cadence, selection, departure, header assembly, flushing, and what a
port that is not in UP sends in a slot (R20). -/

namespace Sys2Proof.Machine

/-! ### Departure and flush accounting (R119, R124) -/

/-- The store and the counts of an entry of the queue (d, c) released by kind (R119, R124). The store of a MARK
entry serves the owed-marker list at once (R47, R102). -/
def State.releaseEntry (s : State) (d : Did) (c : Cls) (e : QEntry) : State :=
  match e, c.granted? with
  | .cell _, some g => s.updUsage d g Usage.release
  | .cell x, none => s.releaseCredit x.src
  | .mref n, some g => (s.updRefs d g (· - 1)).releaseRef n
  | .mref n, none => s.releaseRef n
  | .mark _ _, _ => s.returnMark

/-- The queue (d, c) flushed: every entry removed and accounted as at its departure (R124). -/
def State.flushQueue (s : State) (d : Did) (c : Cls) : State :=
  (s.queue d c).foldl (fun t e => t.releaseEntry d c e) (s.setQueue d c [])

/-- The entries in the four queues of DID `d`. -/
def DidState.queued (D : DidState) : Nat :=
  D.queues.c0.length + D.queues.c1.length + D.queues.c2.length + D.queues.c3.length

/-- The four queues of DID `d` flushed, each entry counted by the counter given (R123, R150). -/
def State.flushDid (s : State) (d : Did) (k : Nat → DidCounters → DidCounters) : State :=
  (Cls.all.foldl (fun t c => t.flushQueue d c) s).countDid d (k (s.did d).queued)

/-! ### Cadence (R113, R114) -/

/-- The round state that an opening slot finds: where the slot before it ended with a wrap, the pattern in effect is
the stored setting (R114). The wrap of R113 acts at the end of the slot, so that a change stored while the last slot
of the pattern is open takes effect at the next slot, with a pattern of length 1 always (R114; DEDUCED, log
entry 17). -/
def Round.opened (r : Round) (stored : List Bool) : Round :=
  if r.wraps then { r with pattern := stored, wraps := false } else r

/-- The kind of the slot that opens: true for Send (R113). -/
def Round.sends (r : Round) : Bool := r.pattern.getD r.position false

/-- The cadence position for the next slot: up by 1, and 0 after the last of the pattern, which ends with a
wrap (R113). -/
def Round.advance (r : Round) : Round :=
  if r.position + 1 ≥ r.pattern.length then { r with position := 0, wraps := true }
  else { r with position := r.position + 1 }

/-- The round state a port-up sets (R112). With a pattern of length 1 every slot ends with a wrap, the one in which
the port comes up among them (R114; DEDUCED, log entry 17). -/
def Round.start (stored : List Bool) (classes : PerG ClassSettings) : Round :=
  { pattern := stored, position := 0, wraps := decide (stored.length = 1),
    budget := classes.map fun _ k => k.weight, c0Pointer := 0, didPointer := .const 0 }

/-! ### Selection (R115 to R118) -/

/-- What a selection chose: the head of a queue, or the oldest cell of the element list. -/
inductive Choice where
  | queue (d : Did) (c : Cls)
  | element
  deriving DecidableEq, Repr

/-- The numbers below `n` from `start` upward, wrapping to 0 (R115, R117). -/
def scanFrom (n start : Nat) : List Nat := (List.range n).map fun i => (start + i) % n

/-- DID `d` contends at port `p` in class `c`: it maps to `p` and its queue is not empty (R111). -/
def State.contends (s : State) (p : PortId) (c : Cls) (d : Did) : Bool :=
  s.mapsTo d p && !(s.queue d c).isEmpty

/-- Contender `i` of class 0 qualifies: a DID 0..31, or 32 for the element list (R115). -/
def State.contender0 (s : State) (p : PortId) (i : Nat) : Bool :=
  if h : i < 32 then s.contends p .c0 ⟨i, h⟩ else decide (i = 32) && !(s.port p).elements.isEmpty

/-- The choice a class-0 contender stands for. -/
def choice0 (i : Nat) : Choice := if h : i < 32 then .queue ⟨i, h⟩ .c0 else .element

/-- The class-0 contender chosen, none while class 0 is held or nothing qualifies (R115). -/
def State.pick0 (s : State) (p : PortId) : Option Nat :=
  if (s.port p).holds.c0 then none
  else (scanFrom 33 (s.port p).round.c0Pointer).find? (s.contender0 p)

/-- A granted class is eligible at port `p` (R116). -/
def State.eligibleClass (s : State) (p : PortId) (c : GClass) : Bool :=
  !(s.port p).holds.get c.cls && allDids.any (s.contends p c.cls)

/-- The granted class chosen and the budgets after the choice, with the refill of R116. -/
def State.pickClass (s : State) (p : PortId) : Option (GClass × PerG Nat) :=
  let b := (s.port p).round.budget
  match GClass.all.find? fun c => s.eligibleClass p c && decide (0 < b.get c) with
  | some c => some (c, b.set c (b.get c - 1))
  | none =>
    match GClass.all.find? (s.eligibleClass p) with
    | some c =>
      let full := s.classes.map fun _ k => k.weight
      some (c, full.set c (full.get c - 1))
    | none => none

/-- The DID chosen within a class, from its DID pointer upward (R117). -/
def State.pickDid (s : State) (p : PortId) (c : GClass) : Option Did :=
  ((scanFrom 32 ((s.port p).round.didPointer.get c)).map fun i => Fin.ofNat 32 i).find?
    (s.contends p c.cls)

/-- The selection of a Send slot: what is taken, and the round state after it (R115 to R118). -/
def State.select (s : State) (p : PortId) : Option Choice × Round :=
  let r := (s.port p).round
  match s.pick0 p with
  | some i => (some (choice0 i), { r with c0Pointer := (i + 1) % 33 })
  | none =>
    match s.pickClass p with
    | none => (none, r)
    | some (c, b) =>
      match s.pickDid p c with
      | none => (none, { r with budget := b })
      | some d =>
        (some (.queue d c.cls),
          { r with budget := b, didPointer := r.didPointer.set c ((d.val + 1) % 32) })

/-! ### Departure (R119) -/

/-- The cell fields and payload an entry of the queue (d, c) is sent with (R11). -/
def State.entryCell (s : State) (d : Did) (c : Cls) (e : QEntry) : CellFields × Payload :=
  match e with
  | .cell x => (storedFields (if c = .c0 then 3 else 1) c d x, x.payload)
  | .mref n =>
    match s.mcCell n with
    | some m => (storedFields 2 c d m.cell, m.cell.payload)
    | none => (fillFields, zeroPayload)
  | .mark src mc => (markFields c d src mc, zeroPayload)

/-- The departure of the entry chosen: what is sent, and the state with its store and counts released and
the cell counted out (R119). -/
def State.depart (s : State) (p : PortId) (ch : Choice) : (CellFields × Payload) × State :=
  match ch with
  | .queue d c =>
    match s.queue d c with
    | [] => ((fillFields, zeroPayload), s)
    | e :: rest =>
      (s.entryCell d c e,
        ((s.setQueue d c rest).releaseEntry d c e).countPort p .incCellsOut)
  | .element =>
    match (s.port p).elements with
    | [] => ((fillFields, zeroPayload), s)
    | f :: rest =>
      ((elementFields, frameBytes f),
        ((s.updPort p fun P => { P with elements := rest }).freeElements 1).countPort p .incCellsOut)

/-! ### Header assembly (R121) -/

/-- The deadline of the record of a grant that leaves: the time of sending plus the lifetime (R78). -/
def Port.startDeadline (t : Nat) (P : Port) (e : GrantEntry) : Port :=
  match P.grant e.did e.cls with
  | none => P
  | some g => P.setGrant e.did e.cls (some { g with deadline := some t })

/-- The link fields of a header of port `p` in UP, from its outboxes and credits as they stand
(R12, R121). -/
def State.linkFields (s : State) (p : PortId) : LinkFields :=
  let P := s.port p
  { aligned := true, plane := s.plane, mcHold := s.mcHold, grants := P.grantOutbox.take Config.grantSlots,
    refusal := P.refusalOutbox.head?,
    credits := BitVec.ofNat 2 (min P.owed Config.creditsPerHeader) }

/-- What leaves in a header of port `p` is taken from its outboxes and credits, and the deadlines of the
grants that leave are started (R70, R78, R155). -/
def State.leaveHeader (s : State) (p : PortId) : State :=
  s.updPort p fun P =>
    let Q := (P.grantOutbox.take Config.grantSlots).foldl (Port.startDeadline (s.now + s.lifetime)) P
    { Q with grantOutbox := P.grantOutbox.drop Config.grantSlots,
             refusalOutbox := P.refusalOutbox.drop 1,
             owed := P.owed - min P.owed Config.creditsPerHeader }

/-- The cell sent by port `p` is recorded as what its link carried in the slot (R20). -/
def State.send (s : State) (p : PortId) (x : Sent) : State := s.updPort p fun P => { P with sent := x }

/-- The header assembled for the cell chosen, and the cell sent (R121). -/
def State.assemble (s : State) (p : PortId) (c : CellFields) (payload : Payload) : State :=
  (s.leaveHeader p).send p (.cell (egressCell c (s.linkFields p) payload))

/-! ### The slot of a port that is not in UP (R20) -/

/-- A FILL cell of a port that is not in UP (R20). -/
def State.idleFill (s : State) (aligned : Bool) : Sent :=
  .cell (egressCell fillFields (idleLinkFields s aligned) zeroPayload)

/-- What a port in TEST sends in a slot: the next bits of its generator, or nothing (R20, R184). The first slot
of a test sets its pattern unit running (R183). -/
def State.testSlot (s : State) (p : PortId) : State :=
  s.updPort p fun P =>
    if P.test.settings.genPattern = .off then { P with test := P.test.begin, sent := .quiet }
    else
      let (bits, u) := PatternUnit.genBits Config.slotBits P.test.begin
      { P with test := u, sent := .pattern bits }

end Sys2Proof.Machine
end

