-- ==== Sys2Proof/Machine/Map.lean ====
section
/-! DEFINITION. The destination map and card moves (chapter 8): the drain condition, the cutovers, the
forced move, and the idleness MAP-SET asks for. -/

namespace Sys2Proof.Machine

/-! ### The four parts (R147) -/

/-- A queue of DID `d` holds an entry. -/
def State.hasQueued (s : State) (d : Did) : Bool := decide ((s.did d).queued ≠ 0)

/-- A record (s, d, c) is open for some source and class. -/
def State.hasGrant (s : State) (d : Did) : Bool :=
  allPorts.any fun p => GClass.all.any fun c => (s.grant p d c).isSome

/-- A grant outbox of some port holds an entry for DID `d`. -/
def State.hasOutbox (s : State) (d : Did) : Bool :=
  allPorts.any fun p => (s.port p).grantOutbox.any fun e => decide (e.did = d)

/-- The owed-marker list holds a key of DID `d`. -/
def State.hasOwed (s : State) (d : Did) : Bool := s.owedMarkers.any fun k => decide (k.did = d)

/-- All four parts are empty together: the drain condition of a MOVING DID (R148), and the idleness
MAP-SET asks for (R144). -/
def State.drained (s : State) (d : Did) : Bool :=
  !s.hasQueued d && !s.hasGrant d && !s.hasOutbox d && !s.hasOwed d

/-! ### Cutovers (R149, R150) -/

/-- The entry of DID `d` written. -/
def State.setMap (s : State) (d : Did) (m : DidMap) : State := s.updDid d fun D => { D with map := m }

/-- A completed move of DID `d`: its result, and its move-done flag (R154, R176). -/
def State.completeMove (s : State) (d : Did) (r : MoveResult) : State :=
  s.updDid d fun D => { D with lastMove := r, moveDone := true }

/-- What the other blocks do at a cutover of DID `d`: its bids are judged against the new port, and when
that port is not UP its trains go to IDLE and it leaves every snapshot (R89, R106, R140). -/
def State.afterCutover (s : State) (d : Did) : State :=
  let t := s.rejudgeBids d
  if t.reachable d then t else (t.idleTrainsOf d).mcForget d

/-- DID `d` cuts over to `target` with a result (R149, R150 step 5). -/
def State.cutover (s : State) (d : Did) (target : PortId) (r : MoveResult) : State :=
  ((s.setMap d (.mapped target)).completeMove d r).afterCutover d

/-- The drain condition of DID `d` judged: a MOVING DID that is drained cuts over (R148, R149). -/
def State.judgeDrain (s : State) (d : Did) : State :=
  match (s.did d).map with
  | .moving _ target _ _ => if s.drained d then s.cutover d target .drained else s
  | _ => s

/-- The forced move at the deadline of a MOVING DID: the five steps in order, the clock at the deadline
(R150). -/
def State.forceMove (s : State) (d : Did) : State :=
  match (s.did d).map with
  | .moving _ target deadline _ =>
    let s0 := { s with now := max s.now deadline }
    let s1 := s0.discardMarksOf d
    let s2 := s1.revoke d
    let s3 := (s2.breakTrainsOf d).mcForget d
    let s4 := s3.flushDid d .addMoveFlush
    s4.cutover d target .forced
  | _ => s

end Sys2Proof.Machine
end

