-- ==== Sys2Proof/Machine/Events.lean ====
section
/-! DEFINITION. The end of an event, which every event that can change a watched condition or a part of a move
comes to: the drain conditions are judged (R148), then the notices (R174, R177). With it the bids of a header,
the slot, and the events of the grant records, the owed markers and the moves. -/

namespace Sys2Proof.Machine

/-! ### The end of an event -/

/-- The drain conditions at the end of an event that led from `before` to `after`: every MOVING DID that the
event drained cuts over within it, DRAINED (R148, R152). A DID that was drained before has none of its parts
changed, so it is not judged. The DIDs are taken in ascending order, after all that the event itself does
(the model's choice where one event drains several DIDs, log entry 8). -/
def State.drainStep (before after : State) : State :=
  (allDids.filter fun d => (after.did d).map.isMoving && !before.drained d).foldl State.judgeDrain after

/-- The end of an event that led from `before` to `after`: the cutovers it brings, and then its notices, so
that one notice frame carries the flags of both (R148, R174, R177). -/
def eventEnd (before after : State) : State := noticeStep before (before.drainStep after)

/-! ### Bids (R5, R65) -/

/-- The bid slots of a header in the order A, B, C, D, each a bid of its own and an event of its own (R5, R9, R65):
what a bid brings about, a cutover among it, stands when the next one and the cell are taken (DEDUCED, log
entry 4). -/
def State.takeBids (s : State) (p : PortId) (bs : List BidSlot) : State :=
  bs.foldl (fun t b => eventEnd t (t.takeBid p b)) s

/-! ### The slot (R20, R113) -/

/-- A slot of a port in UP: cadence, selection, departure, header assembly, each on the state as the stage before
left it (section 6.3). A wrap at the end of the slot before comes into effect first (R114). The departure is an
event, so that a cutover it brings comes before the assembly (R119,
R148; DEDUCED, log entry 4). -/
def State.upSlot (s : State) (p : PortId) : State :=
  let r₀ := (s.port p).round.opened (s.port p).settings.cadence
  let t := s.updPort p fun P => { P with round := r₀.advance }
  if r₀.sends then
    let (ch, r) := t.select p
    let u := t.updPort p fun P => { P with round := r }
    match ch with
    | none => eventEnd u (u.assemble p fillFields zeroPayload)
    | some ch =>
      let ((c, payload), gone) := u.depart p ch
      let v := eventEnd u gone
      eventEnd v (v.assemble p c payload)
  else eventEnd t (t.assemble p fillFields zeroPayload)

/-- A slot opens at port `p` (R20, R113). -/
def State.slotOpens (s : State) (p : PortId) : State :=
  match (s.port p).link with
  | .up => s.upSlot p
  | .disabled => s.send p .quiet
  | .acquiring => s.send p (s.idleFill false)
  | .waiting => s.send p (s.idleFill true)
  | .faulted => s.send p (if (s.port p).settings.squelch then .quiet else s.idleFill false)
  | .test => s.testSlot p

/-- SLOT (R113, R119). -/
def execSlot (p : PortId) (s : State) : Host.Outcome State Fault Refusal := .next (s.slotOpens p)

/-! ### Grant records and owed markers -/

/-- GRANT_EXPIRY (R83). -/
def execGrantExpiry (p : PortId) (d : Did) (c : GClass) (s : State) : Host.Outcome State Fault Refusal :=
  .next (eventEnd s (s.expire p d c))

/-- OWED_MARKER_SERVICE (R102). A returned store serves the list in the event that returns it already (R47, log
entry 4). -/
def execOwedMarkerService (s : State) : Host.Outcome State Fault Refusal := .next (eventEnd s s.serveOwed)

/-! ### Moves -/

/-- DRAINED_CUTOVER (R149). The event that drains a DID cuts it over already (R148, log entry 4). -/
def execDrainedCutover (d : Did) (s : State) : Host.Outcome State Fault Refusal :=
  .next (noticeStep s (s.judgeDrain d))

/-- MOVE_DEADLINE (R150). -/
def execMoveDeadline (d : Did) (s : State) : Host.Outcome State Fault Refusal :=
  .next (eventEnd s (s.forceMove d))

end Sys2Proof.Machine
end

