-- ==== Sys2Proof/Machine/Link.lean ====
section
/-! DEFINITION. Link ports (chapter 2): the link states and their entries, port-up and port-down with the
share of every block, the byte search, the monitors, the elastic buffer, and the arrival of a cell. -/

namespace Sys2Proof.Machine

/-! ### Entries to the link states (R22 to R41) -/

/-- What every entry to a state other than WAITING and UP clears: both counts, the partner-aligned flag,
the hold flags and the byte search (R21, R26, R27, R35, R38, R39). -/
def Port.cleared (P : Port) : Port :=
  { P with alignCount := 0, failCount := 0, partnerAligned := false, holds := .const false,
           searchBytes := [], searchSkip := 0 }

/-- Entry to ACQUIRING (R21). Leaving DISABLED, the elastic buffer starts at its centre (R28). -/
def Port.enterAcquiring (P : Port) : Port :=
  { P.cleared with link := .acquiring,
                   elastic := if P.link = .disabled then Config.elasticCentre else P.elastic }

/-- Entry to FAULTED (R35). -/
def Port.enterFaulted (P : Port) : Port := { P.cleared with link := .faulted }

/-- Entry to TEST with the settings of a test (R38, R183). -/
def Port.enterTest (t : TestSettings) (P : Port) : Port :=
  { P.cleared with link := .test, test := .start t,
                   elastic := if P.link = .disabled then Config.elasticCentre else P.elastic }

/-- Entry to DISABLED: the elastic buffer is emptied, the monitors return to their reset state, and a
running test stops (R39, R189). -/
def Port.enterDisabled (P : Port) : Port :=
  { P.cleared with link := .disabled, elastic := 0, stuck := .reset, quality := .reset,
                   test := if P.link = .test then P.test.stop else P.test }

/-! ### Port-up and port-down (R25) -/

/-- Port-up of `p`: the failure count is 0, the round state is set, and the credits not held are owed
(R25, R112, R156). -/
def State.portUp (s : State) (p : PortId) : State :=
  s.updPort p fun P =>
    { P with link := .up, failCount := 0, searchBytes := [], searchSkip := 0,
             round := Round.start P.settings.cadence s.classes, owed := Config.portCredits - P.held }

/-- The share of every block in the port-down of `p`, which has left UP: the grant engine as source and
for the DIDs mapped to `p`, the arrival unit likewise, the flush and the element list, the multicast
unit, and the credits (R85, R87, R104, R105, R123, R125, R139, R140, R156). The DIDs concerned are those
mapped to `p` when it left UP (R152). -/
def State.blocksDown (s : State) (p : PortId) : State :=
  let ds := s.didsOf p
  let s1 := s.grantSourceDown p
  let s2 := ds.foldl State.grantDestDown s1
  let s3 := s2.arrivalSourceDown p
  let s4 := ds.foldl State.arrivalDestDown s3
  let s5 := ds.foldl (fun t d => t.flushDid d .addFlush) s4
  let s6 := (s5.dropElements p).mcSourceDown p
  let s7 := ds.foldl State.mcForget s6
  s7.updPort p fun P => { P with owed := 0 }

/-- Port `p` enters a state other than UP: from UP this is a port-down, with its cause recorded (R25). -/
def State.leaveFor (s : State) (p : PortId) (entry : Port → Port) (why : DownCause) : State :=
  if s.isUp p then
    (s.updPort p fun P => { entry P with lastDown := why }).blocksDown p
  else s.updPort p entry

/-- The fault causes of port `p` judged: a port in ACQUIRING, WAITING or UP with a cause goes to FAULTED
(R35), a FAULTED port with none goes to ACQUIRING (R36). -/
def State.judgeFault (s : State) (p : PortId) : State :=
  let P := s.port p
  match P.link with
  | .acquiring | .waiting | .up => if P.faultCause then s.leaveFor p Port.enterFaulted .fault else s
  | .faulted => if P.faultCause then s else s.leaveFor p Port.enterAcquiring .fault
  | .disabled | .test => s

/-- Port `p` enters ACQUIRING, and FAULTED at once if a cause stands (R35). -/
def State.toAcquiring (s : State) (p : PortId) (why : DownCause) : State :=
  (s.leaveFor p Port.enterAcquiring why).judgeFault p

/-! ### The byte search (R21, R22) -/

/-- What the search over the received bytes comes to: it goes on from the bytes left, or the header that
completes alignment is found. -/
inductive Search where
  | more (bytes : List Byte) (skip count : Nat)
  | aligned (header : HeaderBytes)

/-- The byte search: bytes to skip, then a candidate header of 16 bytes. A pass looks again 144 bytes on,
a failure one byte on with the count at 0, and the sixteenth pass in a row aligns (R21, R22). -/
def searchHeaders : Nat → List Byte → Nat → Nat → Search
  | 0, bytes, skip, count => .more bytes skip count
  | fuel + 1, bytes, skip, count =>
    let rest := bytes.drop skip
    let left := skip - bytes.length
    if rest.length < Config.headerBytes ∨ 0 < left then .more rest left count
    else
      let h : HeaderBytes := Vector.ofFn fun i => rest.getD i.val 0
      if headerPasses h then
        if count + 1 ≥ Config.alignTarget then .aligned h
        else searchHeaders fuel rest Config.cellBytes (count + 1)
      else searchHeaders fuel rest 1 0

/-- The bytes of a cell in the order they are received. -/
def cellBytesOf (c : RawCell) : List Byte := c.header.toList ++ c.payload.toList

/-! ### Header content (R5, R22 to R24) -/

/-- Step 1 of R5: the aligned flag becomes the partner-aligned flag, and the four hold flags are taken
together (R26, R27). -/
def Port.takeFlags (h : IngressHeader) (P : Port) : Port :=
  { P with partnerAligned := h.aligned, holds := h.holds }

/-- Received bytes in ACQUIRING (R21), and the header that completes alignment (R22). -/
def State.acquire (s : State) (p : PortId) (c : RawCell) : State :=
  let P := s.port p
  let bytes := P.searchBytes ++ cellBytesOf c
  match searchHeaders (bytes.length + 1) bytes P.searchSkip P.alignCount with
  | .more rest skip count =>
    s.updPort p fun P => { P with searchBytes := rest, searchSkip := skip, alignCount := count }
  | .aligned header =>
    let h := IngressHeader.read header
    let t := s.updPort p fun P =>
      { Port.takeFlags h P with
        alignCount := Config.alignTarget, failCount := 0, link := .waiting, searchBytes := [],
        searchSkip := 0 }
    if h.aligned then t.portUp p else t

/-- A header that fails its check in WAITING or UP (R4, R19, R23, R24). -/
def State.headerFails (s : State) (p : PortId) : State :=
  let t := (s.countPort p .incHdrErr).updPort p fun P => { P with failCount := P.failCount + 1 }
  if (t.port p).failCount ≥ Config.failTarget then t.toAcquiring p .headerLoss else t

/-- Step 3 of R5: the cell itself, classified by R1. -/
def State.takeCell (s : State) (p : PortId) (h : IngressHeader) (c : RawCell) : State :=
  let t := if h.carriesCell then s.countPort p .incCellsIn else s
  let good := payloadPasses c
  match h.classify with
  | .fill => t
  | .badKind => t.countPort p .incBadKind
  | .unicast g => t.unicastArrival p g.cls h c.payload good
  | .class0 => t.unicastArrival p .c0 h c.payload good
  | .multicast g => t.multicastArrival p g h c.payload good
  | .command => t.commandArrival p h c.payload good

/-- A cell taken whole from port `p`, by its link state, each event of the arrival brought to its end (R5, R19). In
DISABLED, FAULTED and TEST nothing is framed. In UP the bids are events of their own and the cell is one, judged
on the state the bids leave (section 4.5 of the scope file, R65; DEDUCED, log entry 4). -/
def State.cellArrives (s : State) (p : PortId) (c : RawCell) : State :=
  let h := IngressHeader.read c.header
  match (s.port p).link with
  | .disabled | .faulted | .test => s
  | .acquiring => eventEnd s (s.acquire p c)
  | .waiting =>
    if headerPasses c.header then
      let t := s.updPort p fun P => { Port.takeFlags h P with failCount := 0 }
      eventEnd s (if h.aligned then t.portUp p else t)
    else eventEnd s (s.headerFails p)
  | .up =>
    if headerPasses c.header then
      let t := s.updPort p fun P => { Port.takeFlags h P with failCount := 0 }
      if h.aligned then
        let u := t.takeBids p h.bids
        eventEnd u (u.takeCell p h c)
      else eventEnd s (t.toAcquiring p .partner)
    else eventEnd s (s.headerFails p)

/-- INGRESS_CELL (R5). -/
def execIngressCell (p : PortId) (c : RawCell) (s : State) : Host.Outcome State Fault Refusal :=
  .next (s.cellArrives p c)

/-! ### The elastic buffer (R28, R29) -/

/-- The elastic buffer of port `p` recentred (R28). -/
def State.recentre (s : State) (p : PortId) : State :=
  s.updPort p fun P => { P with elastic := Config.elasticCentre }

/-- A slip of port `p` (R28). Overflow and underflow differ only in which bytes of the lost cell are
gone. In WAITING and UP the lost cell never arrives (R29). In ACQUIRING the search resumes with the next byte
received: the received bytes it still holds and any pending skip are dropped (the manual says only that the
search resumes; DESIGN CHOICE, log entry 9). -/
def State.slips (s : State) (p : PortId) (_kind : SlipKind) : State :=
  match (s.port p).link with
  | .disabled => s
  | .faulted | .test => s.recentre p
  | .acquiring =>
    (s.recentre p).updPort p fun P => { P with alignCount := 0, searchBytes := [], searchSkip := 0 }
  | .waiting | .up =>
    let t := (s.recentre p).countPort p .incSlip
    if (t.port p).settings.autoRecentre then t else t.toAcquiring p .slip

/-- SLIP (R28). -/
def execSlip (p : PortId) (k : SlipKind) (s : State) : Host.Outcome State Fault Refusal :=
  .next (eventEnd s (s.slips p k))

/-! ### The stuck-line monitor (R30 to R32) -/

/-- The end of a block while the monitor is asserted (R31). -/
def StuckMonitor.endBlock (k : Nat) (m : StuckMonitor) : StuckMonitor :=
  let clean := if m.blockTransition then m.cleanBlocks + 1 else 0
  let done := m.blockTransition && decide ((k + 1) * 4 ≤ clean)
  { m with asserted := m.asserted && !done, cleanBlocks := if m.asserted && !done then clean else 0,
           blockBits := 0, blockTransition := false }

/-- One received bit at the monitor, with the settings N and K as they stand (R30, R31, R32). A run
reaches the threshold at the bit that brings it there, or, while the monitor is not asserted, at any bit
that continues a run already at or above it. While it is asserted, a run that an N lowered by PORT-SET puts at
or above the threshold does not set the clean-block count to 0: only the bit that brings a run to the threshold
does (R32 leaves the count open there; DESIGN CHOICE, log entry 12). -/
def StuckMonitor.takeBit (n k : Nat) (m : StuckMonitor) (b : Bool) : StuckMonitor :=
  let run := if m.lastBit = some b then m.runLength + 1 else 1
  let threshold := (n + 1) * 256
  let reached := decide (run = threshold) || (!m.asserted && decide (threshold ≤ run))
  let m1 : StuckMonitor :=
    { m with runLength := run, lastBit := some b, asserted := m.asserted || reached,
             cleanBlocks := if reached then 0 else m.cleanBlocks, blockBits := m.blockBits + 1,
             blockTransition := m.blockTransition || decide (m.lastBit = some (!b)) }
  if m1.blockBits ≥ Config.stuckBlockBits then m1.endBlock k else m1

/-- The monitor of port `p` takes received bits one after another, in every state except DISABLED. At a
bit that asserts or clears it the fault causes are judged, and that event ends (R30, R31, R35, R36). -/
def State.takeStuckBits (p : PortId) : List Bool → State → State
  | [], s => s
  | b :: bs, s =>
    if (s.port p).link = .disabled then s
    else
      let t := s.updPort p fun P =>
        { P with stuck := P.stuck.takeBit P.settings.stuckN P.settings.stuckK b }
      State.takeStuckBits p bs
        (if (t.port p).stuck.asserted = (s.port p).stuck.asserted then t
         else eventEnd s (t.judgeFault p))

/-- STUCK_LINE_ASSERT (R30). -/
def execStuckLineAssert (p : PortId) (bits : List Bool) (s : State) : Host.Outcome State Fault Refusal :=
  .next (s.takeStuckBits p bits)

/-- STUCK_BLOCK_END (R31). -/
def execStuckBlockEnd (p : PortId) (bits : List Bool) (s : State) : Host.Outcome State Fault Refusal :=
  .next (s.takeStuckBits p bits)

/-! ### The quality monitor (R33, R35, R36) -/

/-- The figure recorded and the alarm evaluated (R33). -/
def Port.takeFigure (fig : BitVec 6) (P : Port) : Port :=
  let alarm := alarmAfter P.quality.alarm fig.toNat P.settings.qualA P.settings.qualD
  { P with quality := { figure := fig, alarm := alarm } }

/-- A quality measurement of port `p` completes; in DISABLED the monitor does not run (R33). -/
def State.qualityCompletes (s : State) (p : PortId) (fig : BitVec 6) : State :=
  if (s.port p).link = .disabled then s else (s.updPort p (Port.takeFigure fig)).judgeFault p

/-- QUALITY_COMPLETION (R33). -/
def execQualityCompletion (p : PortId) (fig : BitVec 6) (s : State) : Host.Outcome State Fault Refusal :=
  .next (eventEnd s (s.qualityCompletes p fig))

end Sys2Proof.Machine
end

