-- ==== Sys2Proof/Machine/Commands.lean ====
section
/-! DEFINITION. The commands of section 9.3.3, each judged and carried out as the command unit takes it
from the head of the command queue (R159, R160). FABRIC-RESET stands in Reset.lean. -/

namespace Sys2Proof.Machine

/-- An identifier or selection code read from a parameter word; out of range it refuses the command with
BAD_VALUE (R160 step 3). -/
def withValue {α : Type} (x : Option α) (s : State) (k : α → Reply) : Reply :=
  match x with
  | none => .refuse .badValue s
  | some a => k a

/-! ### Identification and status lines (R163) -/

/-- IDENTIFY (R163). -/
def doIdentify (_cmd : CmdCell) (s : State) : Reply :=
  .accept false
    [Config.vendorCode, Config.partCode, Config.revision, s.plane.setWidth 32, Config.portCount] s

/-- IDENTIFY. -/
def execIdentify (s : State) : Host.Outcome State Fault Refusal :=
  .next (commandStep (some .identify) (fun c t => judgeCommand c doIdentify t) s)

/-- LINES-SET (R163). -/
def doLinesSet (cmd : CmdCell) (s : State) : Reply :=
  withValue (Word.line? (cmd.param 1)) s fun a =>
  withValue (Word.line? (cmd.param 2)) s fun b =>
    .accept false [] { s with status0 := a, status1 := b }

/-- LINES_SET. -/
def execLinesSet (s : State) : Host.Outcome State Fault Refusal :=
  .next (commandStep (some .linesSet) (fun c t => judgeCommand c doLinesSet t) s)

/-! ### Ports (R161, R164, R165) -/

/-- Port `p` is UP with may-command set (R161). -/
def State.commands (s : State) (p : PortId) : Bool := s.isUp p && (s.port p).settings.mayCommand

/-- No port but `p` is UP with may-command set. -/
def State.lastCommander (s : State) (p : PortId) : Bool :=
  s.commands p && allPorts.all fun q => decide (q = p) || !s.commands q

/-- A PORT-SET names setting `i` of the table of section 2.10 (R164). -/
def CmdCell.names (cmd : CmdCell) (i : Nat) : Bool := (cmd.param 2).getLsbD i

/-- A PORT-SET clears enable or may-command (R161). -/
def clearsCommand (cmd : CmdCell) : Bool :=
  (cmd.names 0 && !Word.flag (cmd.param 3)) || (cmd.names 10 && !Word.flag (cmd.param 14))

/-- A PORT-SET names a cadence length of 0 or above 16 (R164). -/
def badCadence (cmd : CmdCell) : Bool :=
  cmd.names 9 && (decide ((cmd.param 12).toNat = 0) || decide (16 < (cmd.param 12).toNat))

/-- A PORT-SET sets report on port `p` while two other ports have it set (R164). -/
def tooManyReports (cmd : CmdCell) (p : PortId) (s : State) : Bool :=
  cmd.names 11 && Word.flag (cmd.param 15) &&
    decide (Config.maxReportPorts ≤ ((s.reportPorts).filter fun q => !decide (q = p)).length)

/-- The value of a setting after a PORT-SET: the value word's where it is named (R42, R164). -/
def CmdCell.pick {α : Type} (cmd : CmdCell) (i : Nat) (old new : α) : α := if cmd.names i then new else old

/-- The settings of a port after a PORT-SET, clamped (R32, R34, R164). -/
def newSettings (cmd : CmdCell) (o : Settings) : Settings :=
  { enable := cmd.pick 0 o.enable (Word.flag (cmd.param 3)),
    autoRecentre := cmd.pick 1 o.autoRecentre (Word.flag (cmd.param 4)),
    payloadMode := cmd.pick 2 o.payloadMode (if Word.flag (cmd.param 5) then .drop else .forward),
    squelch := cmd.pick 3 o.squelch (Word.flag (cmd.param 6)),
    qualityFault := cmd.pick 4 o.qualityFault (Word.flag (cmd.param 7)),
    stuckN := cmd.pick 5 o.stuckN (clampNat 0 255 (cmd.param 8).toNat),
    stuckK := cmd.pick 6 o.stuckK (clampNat 0 63 (cmd.param 9).toNat),
    qualA := cmd.pick 7 o.qualA (clampNat 0 63 (cmd.param 10).toNat),
    qualD := cmd.pick 8 o.qualD (clampNat 0 63 (cmd.param 11).toNat),
    cadence := cmd.pick 9 o.cadence (cadenceOf (cmd.param 12).toNat (cmd.param 13)),
    mayCommand := cmd.pick 10 o.mayCommand (Word.flag (cmd.param 14)),
    report := cmd.pick 11 o.report (Word.flag (cmd.param 15)) }

/-- A PORT-SET clamps a value, or gives a D below the A that results from it (R32, R34, R162). -/
def portSetClamps (cmd : CmdCell) (o : Settings) : Bool :=
  (cmd.names 5 && decide (255 < (cmd.param 8).toNat)) ||
  (cmd.names 6 && decide (63 < (cmd.param 9).toNat)) ||
  (cmd.names 7 && decide (63 < (cmd.param 10).toNat)) ||
  (cmd.names 8 && decide (63 < (cmd.param 11).toNat)) ||
  (cmd.names 8 && decide ((newSettings cmd o).qualD < (newSettings cmd o).qualA))

/-- The link state after the enable setting changed from what it was before: DISABLED where it was
cleared, ACQUIRING where it was set on a DISABLED port (R39); then the fault causes are judged, which a
change of quality-fault can bring or end (R35, R36, R42). R39 and R35 both act at once and no order is stated: where
one PORT-SET clears enable and enables quality-fault with the alarm set on a port in UP, enable acts first, so the
last down cause is DISABLE and not FAULT (DESIGN CHOICE, log entry 11). -/
def State.applyEnable (s : State) (p : PortId) (before : Bool) : State :=
  let P := s.port p
  let t :=
    if before && !P.settings.enable then s.leaveFor p Port.enterDisabled .disable
    else if !before && P.settings.enable && decide (P.link = .disabled) then
      s.leaveFor p Port.enterAcquiring .disable
    else s
  t.judgeFault p

/-- An accepted PORT-SET: the settings changed together, each taking effect as R42 lays down. -/
def State.applyPortSet (s : State) (p : PortId) (cmd : CmdCell) : State :=
  let before := (s.port p).settings.enable
  (s.updPort p fun P => { P with settings := newSettings cmd P.settings }).applyEnable p before

/-- PORT-SET (R161, R164). -/
def doPortSet (cmd : CmdCell) (s : State) : Reply :=
  withValue (Word.port? (cmd.param 1)) s fun p =>
    if s.lastCommander p && clearsCommand cmd then .refuse .lockout s
    else if badCadence cmd then .refuse .badValue s
    else if tooManyReports cmd p s then .refuse .inUse s
    else .accept (portSetClamps cmd (s.port p).settings) [] (eventEnd s (s.applyPortSet p cmd))

/-- PORT_SET. -/
def execPortSet (s : State) : Host.Outcome State Fault Refusal :=
  .next (commandStep (some .portSet) (fun c t => judgeCommand c doPortSet t) s)

/-- The settings of a port as result words, in the order of words 3 to 15 of PORT-SET (R165). -/
def settingsWords (o : Settings) : List Word :=
  [flagWord o.enable, flagWord o.autoRecentre, flagWord (decide (o.payloadMode = .drop)),
   flagWord o.squelch, flagWord o.qualityFault, natWord o.stuckN, natWord o.stuckK, natWord o.qualA,
   natWord o.qualD, natWord o.cadence.length, cadenceWord o.cadence, flagWord o.mayCommand,
   flagWord o.report]

/-- The 22 result words of PORT-GET (R43, R165). -/
def portWords (P : Port) : List Word :=
  [P.link.word, flagWord P.stuck.asserted, flagWord P.quality.alarm, P.lastDown.word,
   P.quality.figure.setWidth 32, flagWord P.holds.c0, flagWord P.holds.c1, flagWord P.holds.c2,
   flagWord P.holds.c3] ++ settingsWords P.settings

/-- PORT-GET (R165). -/
def doPortGet (cmd : CmdCell) (s : State) : Reply :=
  withValue (Word.port? (cmd.param 1)) s fun p => .accept false (portWords (s.port p)) s

/-- PORT_GET. -/
def execPortGet (s : State) : Host.Outcome State Fault Refusal :=
  .next (commandStep (some .portGet) (fun c t => judgeCommand c doPortGet t) s)

/-! ### Classes and lifetime (R82, R166) -/

/-- The settings of a class from its four words, first at word `i`, clamped (R52, R90, R122, R135). -/
def classFrom (cmd : CmdCell) (i : Nat) : ClassSettings :=
  { grantMax := clampNat 1 64 (cmd.param i).toNat,
    exponent := clampInt (-3) 3 (cmd.param (i + 1)).toInt,
    weight := clampNat 1 15 (cmd.param (i + 2)).toNat,
    mcLimit := clampNat 0 1024 (cmd.param (i + 3)).toNat }

/-- The four words of a class, in the order of CLASS-SET (R166). -/
def classWords (k : ClassSettings) : List Word :=
  [natWord k.grantMax, BitVec.ofInt 32 k.exponent, natWord k.weight, natWord k.mcLimit]

/-- The twelve words of the three classes (R166). -/
def allClassWords (t : PerG ClassSettings) : List Word :=
  classWords t.c1 ++ classWords t.c2 ++ classWords t.c3

/-- CLASS-SET (R166): CLAMPED where a value in effect is not the value given. -/
def doClassSet (cmd : CmdCell) (s : State) : Reply :=
  let t : PerG ClassSettings := ⟨classFrom cmd 1, classFrom cmd 5, classFrom cmd 9⟩
  let given := (List.range 12).map fun i => cmd.param (i + 1)
  .accept (!decide (allClassWords t = given)) (allClassWords t) { s with classes := t }

/-- CLASS_SET. -/
def execClassSet (s : State) : Host.Outcome State Fault Refusal :=
  .next (commandStep (some .classSet) (fun c t => judgeCommand c doClassSet t) s)

/-- LIFETIME-SET (R82, R166). -/
def doLifetimeSet (cmd : CmdCell) (s : State) : Reply :=
  let given := (cmd.param 1).toNat
  let v := clampNat 2 250 given
  .accept (!decide (v = given)) [natWord v] { s with lifetime := v }

/-- LIFETIME_SET. -/
def execLifetimeSet (s : State) : Host.Outcome State Fault Refusal :=
  .next (commandStep (some .lifetimeSet) (fun c t => judgeCommand c doLifetimeSet t) s)

/-! ### Pools (R60 to R62, R138, R167) -/

/-- A multicast pool size brought into range: down to a multiple of 64, and at most 8192 (R60). -/
def clampPool (n : Nat) : Nat := min (n / 64 * 64) 8192

/-- The floor of DID `d` as a POOL-SET gives it: two to a word, from word 4 (R167). -/
def givenFloor (cmd : CmdCell) (d : Did) : Nat :=
  let w := cmd.param (4 + d.val / 2)
  if d.val % 2 = 0 then (w.extractLsb' 16 16).toNat else (w.extractLsb' 0 16).toNat

/-- The floor of DID `d` after clamping (R60). -/
def newFloor (cmd : CmdCell) (d : Did) : Nat := clampNat 0 512 (givenFloor cmd d)

/-- The sum of the floors a POOL-SET gives, after clamping. -/
def newFloorSum (cmd : CmdCell) : Nat := (allDids.map (newFloor cmd)).sum

/-- The sum of the excesses from the present usages and the new floors (R61). -/
def newExcessSum (cmd : CmdCell) (s : State) : Nat :=
  (allDids.map fun d => (s.did d).excessOver (newFloor cmd d)).sum

/-- A POOL-SET clamps a value, or gives a Hoff at or below the Hon that results (R60, R138). -/
def poolSetClamps (cmd : CmdCell) : Bool :=
  !decide (clampPool (cmd.param 1).toNat = (cmd.param 1).toNat) ||
  decide (8192 < (cmd.param 2).toNat) || decide (8192 < (cmd.param 3).toNat) ||
  decide (min (cmd.param 3).toNat 8192 ≤ min (cmd.param 2).toNat 8192) ||
  allDids.any fun d => decide (512 < givenFloor cmd d)

/-- An accepted POOL-SET: sizes and thresholds replaced, and the hold judged at once (R62, R138). -/
def State.applyPoolSet (s : State) (cmd : CmdCell) : State :=
  { s.mapDids (fun d D => { D with floor := newFloor cmd d }) with
    poolSize := clampPool (cmd.param 1).toNat, holdOn := clampNat 0 8192 (cmd.param 2).toNat,
    holdOff := clampNat 0 8192 (cmd.param 3).toNat }.judgeHold

/-- POOL-SET, judged in the order of R61 (R60 to R62, R167). -/
def doPoolSet (cmd : CmdCell) (s : State) : Reply :=
  let pool := clampPool (cmd.param 1).toNat
  let shared := sharedPoolOf pool (newFloorSum cmd)
  if shared < Config.minSharedPool then .refuse .badValue s
  else if shared < (newExcessSum cmd s : Int) then .refuse .inUse s
  else if pool < s.poolUse then .refuse .inUse s
  else
    let t := s.applyPoolSet cmd
    .accept (poolSetClamps cmd) [BitVec.ofInt 32 t.sharedPool, natWord t.excessSum, natWord t.freeShared] t

/-- POOL_SET. -/
def execPoolSet (s : State) : Host.Outcome State Fault Refusal :=
  .next (commandStep (some .poolSet) (fun c t => judgeCommand c doPoolSet t) s)

/-! ### The destination map (R144, R145, R154, R168) -/

/-- The entry a MAP-SET gives: unmapped, or mapped to the port given; none for a port above 23 (R168). -/
def givenMap (cmd : CmdCell) : Option DidMap :=
  if Word.flag (cmd.param 2) then (Word.port? (cmd.param 3)).map .mapped else some .unmapped

/-- An accepted MAP-SET: the entry, the bid queues judged against it, trains IDLE, and no snapshot holds
the DID (R89, R106, R140, R144). -/
def State.applyMapSet (s : State) (d : Did) (m : DidMap) : State :=
  (((s.setMap d m).rejudgeBids d).idleTrainsOf d).mcForget d

/-- MAP-SET (R144). -/
def doMapSet (cmd : CmdCell) (s : State) : Reply :=
  withValue (Word.did? (cmd.param 1)) s fun d =>
  withValue (givenMap cmd) s fun m =>
    if (s.did d).map.isMoving then .refuse .busy s
    else if s.drained d then .accept false [] (s.applyMapSet d m)
    else .refuse .inUse s

/-- MAP_SET. -/
def execMapSet (s : State) : Host.Outcome State Fault Refusal :=
  .next (commandStep (some .mapSet) (fun c t => judgeCommand c doMapSet t) s)

/-- A move of a MAPPED DID: completed at once to the present port, and otherwise MOVING, with the drain
condition judged in the same processing (R145). -/
def State.startMove (s : State) (d : Did) (port target : PortId) (code : Nat) : State :=
  if target = port then s.completeMove d .drained
  else (s.setMap d (.moving port target (s.now + Config.moveDuration code) code)).judgeDrain d

/-- MAP-MOVE (R145, R168). -/
def doMapMove (cmd : CmdCell) (s : State) : Reply :=
  withValue (Word.did? (cmd.param 1)) s fun d =>
  withValue (Word.port? (cmd.param 2)) s fun target =>
    match (s.did d).map with
    | .unmapped => .refuse .badValue s
    | .moving _ _ _ _ => .refuse .busy s
    | .mapped port =>
      let code := clampNat 0 3 (cmd.param 3).toNat
      let t := noticeStep s (s.startMove d port target code)
      .accept (decide (3 < (cmd.param 3).toNat)) [(t.did d).map.word] t

/-- MAP_MOVE. -/
def execMapMove (s : State) : Host.Outcome State Fault Refusal :=
  .next (commandStep (some .mapMove) (fun c t => judgeCommand c doMapMove t) s)

/-- The nine result words of MAP-GET (R154, R168). -/
def mapWords (s : State) (d : Did) : List Word :=
  let D := s.did d
  let mv := D.map.isMoving
  let (port, target, code) : Nat × Nat × Nat := match D.map with
    | .unmapped => (0, 0, 0)
    | .mapped p => (p.val, 0, 0)
    | .moving p t _ k => (p.val, t.val, k)
  [D.map.word, natWord port, natWord target, natWord code, D.lastMove.word,
   flagWord (mv && s.hasQueued d), flagWord (mv && s.hasGrant d), flagWord (mv && s.hasOutbox d),
   flagWord (mv && s.hasOwed d)]

/-- MAP-GET (R154, R168). -/
def doMapGet (cmd : CmdCell) (s : State) : Reply :=
  withValue (Word.did? (cmd.param 1)) s fun d => .accept false (mapWords s d) s

/-- MAP_GET. -/
def execMapGet (s : State) : Host.Outcome State Fault Refusal :=
  .next (commandStep (some .mapGet) (fun c t => judgeCommand c doMapGet t) s)

/-! ### Multicast groups (R127, R169) -/

/-- GROUP-SET (R127, R169). -/
def doGroupSet (cmd : CmdCell) (s : State) : Reply :=
  withValue (Word.group? (cmd.param 1)) s fun g =>
    let e : Group := { valid := Word.flag (cmd.param 2), members := cmd.param 3,
                       excludeSource := Word.flag (cmd.param 4) }
    .accept false [] { s with groups := s.groups.set g e }

/-- GROUP_SET. -/
def execGroupSet (s : State) : Host.Outcome State Fault Refusal :=
  .next (commandStep (some .groupSet) (fun c t => judgeCommand c doGroupSet t) s)

/-- GROUP-GET (R169). -/
def doGroupGet (cmd : CmdCell) (s : State) : Reply :=
  withValue (Word.group? (cmd.param 1)) s fun g =>
    let e := s.groups[g]
    .accept false [flagWord e.valid, e.members, flagWord e.excludeSource] s

/-- GROUP_GET. -/
def execGroupGet (s : State) : Host.Outcome State Fault Refusal :=
  .next (commandStep (some .groupGet) (fun c t => judgeCommand c doGroupGet t) s)

/-! ### Notices and counters (R169, R175, R178, R180) -/

/-- NOTICE-EXPECT: mask and expected values replaced, the match state recorded, no flag set (R175). -/
def doNoticeExpect (cmd : CmdCell) (s : State) : Reply :=
  withValue (Word.port? (cmd.param 1)) s fun p =>
    let mask := (cmd.param 2).extractLsb' 0 5
    let want := (cmd.param 3).extractLsb' 0 5
    .accept false [] (s.updPort p fun P =>
      { P with watchMask := mask, watchExpect := want, watchMatch := matchOf mask want P.conditions })

/-- NOTICE_EXPECT. -/
def execNoticeExpect (s : State) : Host.Outcome State Fault Refusal :=
  .next (commandStep (some .noticeExpect) (fun c t => judgeCommand c doNoticeExpect t) s)

/-- NOTICE-READ: the flags returned and cleared (R178). -/
def doNoticeRead (_cmd : CmdCell) (s : State) : Reply :=
  .accept false [s.noticeWord, s.moveDoneWord]
    ((s.mapPorts fun _ P => { P with noticeFlag := false }).mapDids fun _ D => { D with moveDone := false })

/-- NOTICE_READ. -/
def execNoticeRead (s : State) : Host.Outcome State Fault Refusal :=
  .next (commandStep (some .noticeRead) (fun c t => judgeCommand c doNoticeRead t) s)

/-- The port counters in the order of R169. -/
def portCounterWords (k : PortCounters) : List Word :=
  [k.cellsIn, k.cellsOut, k.hdrErr, k.badKind, k.payloadErr, k.slip, k.late, k.orphan, k.broken,
   k.c0Overrun, k.mcPool, k.mcNoMember, k.groupInvalid, k.badBid, k.refusalLost, k.grantExpired]

/-- The DID counters in the order of R169. -/
def didCounterWords (k : DidCounters) : List Word :=
  [k.unmapped, k.destDown, k.flush, k.moveFlush, k.mcPrune]

/-- COUNTERS-READ (R169, R180). -/
def doCountersRead (cmd : CmdCell) (s : State) : Reply :=
  let clear := Word.flag (cmd.param 3)
  match (cmd.param 1).toNat with
  | 0 =>
    withValue (Word.port? (cmd.param 2)) s fun p =>
      .accept false (portCounterWords (s.port p).counters)
        (if clear then s.countPort p fun _ => .zero else s)
  | 1 =>
    withValue (Word.did? (cmd.param 2)) s fun d =>
      .accept false (didCounterWords (s.did d).counters)
        (if clear then s.countDid d fun _ => .zero else s)
  | 2 => .accept false [s.cmdLost] (if clear then { s with cmdLost := 0 } else s)
  | _ => .refuse .badValue s

/-- COUNTERS_READ. -/
def execCountersRead (s : State) : Host.Outcome State Fault Refusal :=
  .next (commandStep (some .countersRead) (fun c t => judgeCommand c doCountersRead t) s)

/-! ### Link tests (R38, R170, R183, R189) -/

/-- TEST-START (R38, R161, R170, R183). -/
def doTestStart (cmd : CmdCell) (s : State) : Reply :=
  withValue (Word.port? (cmd.param 1)) s fun p =>
  withValue (Word.pattern? (cmd.param 2)) s fun gen =>
  withValue (Word.pattern? (cmd.param 3)) s fun chk =>
  withValue (Word.timebase? (cmd.param 6)) s fun base =>
    if s.lastCommander p then .refuse .lockout s
    else
      let t : TestSettings :=
        { genPattern := gen, chkPattern := chk, genInvert := Word.flag (cmd.param 4),
          chkInvert := Word.flag (cmd.param 5), timebase := base, syncMask := Word.flag (cmd.param 7),
          user := cmd.param 8 ++ cmd.param 9 }
      .accept false [] (eventEnd s (s.leaveFor p (Port.enterTest t) .test))

/-- TEST_START. -/
def execTestStart (s : State) : Host.Outcome State Fault Refusal :=
  .next (commandStep (some .testStart) (fun c t => judgeCommand c doTestStart t) s)

/-- A port in TEST is taken out of it: to ACQUIRING, and FAULTED at once if a cause stands, or to DISABLED
if its enable setting is clear (R38, R189). -/
def State.stopTest (s : State) (p : PortId) : State :=
  if (s.port p).link = .test then
    if (s.port p).settings.enable then
      (s.updPort p fun P => { P with test := P.test.stop }).toAcquiring p .test
    else s.leaveFor p Port.enterDisabled .test
  else s

/-- TEST-STOP (R38, R170, R189). -/
def doTestStop (cmd : CmdCell) (s : State) : Reply :=
  withValue (Word.port? (cmd.param 1)) s fun p => .accept false [] (eventEnd s (s.stopTest p))

/-- TEST_STOP. -/
def execTestStop (s : State) : Host.Outcome State Fault Refusal :=
  .next (commandStep (some .testStop) (fun c t => judgeCommand c doTestStop t) s)

/-- The eight result words of TEST-READ (R188, R189). -/
def testWords (u : PatternUnit) : List Word :=
  [flagWord (decide (u.sync = .inSync)), flagWord u.syncEver,
   (u.errorCount.extractLsb' 32 16).setWidth 32, u.errorCount.extractLsb' 0 32,
   (u.lastResult.extractLsb' 32 16).setWidth 32, u.lastResult.extractLsb' 0 32,
   natWord (shortForm u.errorCount.toNat), natWord (shortForm u.lastResult.toNat)]

/-- TEST-READ (R189). -/
def doTestRead (cmd : CmdCell) (s : State) : Reply :=
  withValue (Word.port? (cmd.param 1)) s fun p => .accept false (testWords (s.port p).test) s

/-- TEST_READ. -/
def execTestRead (s : State) : Host.Outcome State Fault Refusal :=
  .next (commandStep (some .testRead) (fun c t => judgeCommand c doTestRead t) s)

/-! ### Unreadable commands (R16) -/

/-- The answer to a command that cannot be read (R16, R160 step 1). -/
def doBadCommand (_cmd : CmdCell) (s : State) : Reply := .refuse .badCommand s

/-- BAD_COMMAND (R16). -/
def execBadCommand (s : State) : Host.Outcome State Fault Refusal :=
  .next (commandStep none doBadCommand s)

end Sys2Proof.Machine
end

