-- ==== Sys2Proof/Machine/Reset.lean ====
section
/-! DEFINITION. The two resets of the whole element: device reset and FABRIC-RESET (section 3.3). -/

namespace Sys2Proof.Machine

/-! ### Device reset -/

/-- DEVICE_RESET: every block takes its device-reset values, and the plane straps are read (R41, R63, R91,
R107, R112, R141, R142, R172, R174, R179, R181 to R183). The commands that wait are not the element's. -/
def execDeviceReset (straps : BitVec 3) (s : State) : Host.Outcome State Fault Refusal :=
  .next { State.reset with plane := straps, pending := s.pending }

/-! ### FABRIC-RESET (R171) -/

/-- The link share of FABRIC-RESET at one port: ACQUIRING from ACQUIRING, WAITING, UP and FAULTED with the
elastic buffer recentred, and FAULTED at once if a cause stands; a port that was UP records the cause
(R35, R40). -/
def Port.fabricLink (P : Port) : Port :=
  match P.link with
  | .disabled | .test => P
  | _ =>
    let Q := { P.enterAcquiring with
      elastic := Config.elasticCentre,
      lastDown := if P.link = LinkState.up then .fabricReset else P.lastDown }
    if Q.faultCause then Q.enterFaulted else Q

/-- What FABRIC-RESET empties at one port: grant records and outboxes, trains, the element list, and the
credit state (R91, R107, R125, R141, R171). -/
def Port.fabricEmpty (P : Port) : Port :=
  { P with elements := [], grants := tabMap (fun _ _ => PerG.const none) P.grants, grantOutbox := [],
           refusalOutbox := [], trains := tabMap (fun _ _ => PerClass.const .idle) P.trains,
           mcTrains := .const .idle, held := 0, owed := 0 }

/-- What FABRIC-RESET does at one destination: usage, bid queues, egress queues and reference counts are
emptied, and a MOVING entry cuts over INTERRUPTED (R58, R91, R125, R141, R153). -/
def DidState.fabricReset (D : DidState) : DidState :=
  let E := { D with usage := .const ⟨0, 0⟩, bids := .const [], queues := .const [], mcRefs := .const 0 }
  match D.map with
  | .moving _ target _ _ => { E with map := .mapped target, lastMove := .interrupted, moveDone := true }
  | _ => E

/-- The effects of an accepted FABRIC-RESET (R171). The multicast hold is judged from off (R141). -/
def State.fabricReset (s : State) : State :=
  let t := (s.mapPorts fun _ P => P.fabricLink.fabricEmpty).mapDids fun _ D => D.fabricReset
  noticeStep s { t with
    markerUse := 0, owedMarkers := [], poolUse := 0, mcCells := [], elementUse := 0, cmdQueue := [],
    cmdUnit := .ready, mcHold := false }.judgeHold

/-- FABRIC_RESET: the command unit takes the command from the head of the queue; refused it is answered,
accepted it has no response (R171). -/
def execFabricReset (s : State) : Host.Outcome State Fault Refusal :=
  .next (match s.cmdUnit, s.cmdQueue with
    | .ready, cmd :: rest =>
      if cmd.reading = some .fabricReset then
        let t := s.takeCommand cmd rest
        if (t.port cmd.src).settings.mayCommand then t.fabricReset
        else t.offerResponse cmd.src (responseFrame cmd.frame .denied [])
      else s
    | _, _ => s)

end Sys2Proof.Machine
end

