-- ==== Sys2Proof/Machine/Due.lean ====
section
/-! DEFINITION. What the element does of itself while no command waits: the steps of the table that the
manual makes come of themselves, one at a time in a fixed order, and the passing of time when none is
due (DESIGN CHOICE, log entry 5). -/

namespace Sys2Proof.Machine

/-- A free marker store has a marker to place or owed markers to discard. The event that returns a store serves
the list (R47, R102), so that no run from reset leaves one. -/
def State.owedDue (s : State) : Bool :=
  decide (s.markerUse < Config.markerReserve) && !s.owedMarkers.isEmpty

/-- A held response finds room in the element allowance. The fall of the allowance offers it (R159), so that no
run from reset leaves one. -/
def State.heldDue (s : State) : Bool :=
  match s.cmdUnit with
  | .ready => false
  | .holding _ _ => decide (s.elementUse < Config.elementAllowance)

/-- DID `d` is MOVING and drained. The event that drains it cuts it over (R148), so that no run from reset leaves
one. -/
def State.cutoverDue (s : State) (d : Did) : Bool := (s.did d).map.isMoving && s.drained d

/-- The record (s, d, c) has a deadline the clock has reached (R83). -/
def State.expiryDue (s : State) (p : PortId) (d : Did) (c : GClass) : Bool :=
  match s.grant p d c with
  | some { remaining := _, deadline := some t } => decide (t ≤ s.now)
  | _ => false

/-- The move deadline of DID `d` has been reached (R150). -/
def State.moveDue (s : State) (d : Did) : Bool :=
  match (s.did d).map with
  | .moving _ _ t _ => decide (t ≤ s.now)
  | _ => false

/-- The command of the table the unit would carry out for a command read as `c`. -/
def instrOf : Option Code → Instr
  | none => .badCommand
  | some .identify => .identify
  | some .portSet => .portSet
  | some .portGet => .portGet
  | some .classSet => .classSet
  | some .poolSet => .poolSet
  | some .lifetimeSet => .lifetimeSet
  | some .mapSet => .mapSet
  | some .mapMove => .mapMove
  | some .mapGet => .mapGet
  | some .groupSet => .groupSet
  | some .groupGet => .groupGet
  | some .noticeExpect => .noticeExpect
  | some .noticeRead => .noticeRead
  | some .countersRead => .countersRead
  | some .testStart => .testStart
  | some .testStop => .testStop
  | some .testRead => .testRead
  | some .linesSet => .linesSet
  | some .fabricReset => .fabricReset

/-- The command the command unit takes next, none while it holds a response or none waits (R159). -/
def State.commandDue (s : State) : Option Instr :=
  match s.cmdUnit, s.cmdQueue with
  | .ready, cmd :: _ => some (instrOf cmd.reading)
  | _, _ => none

/-- The keys of the grant records in ascending order of port, DID and class. -/
def grantKeys : List (PortId × Did × GClass) :=
  allPorts.flatMap fun p => allDids.flatMap fun d => GClass.all.map fun c => (p, d, c)

/-- The keys of the bid queues in ascending order of DID and class. -/
def arbiterKeys : List (Did × GClass) := allDids.flatMap fun d => GClass.all.map fun c => (d, c)

/-- The step that is due, none when nothing is: owed markers, the held response, drained cutovers, expiries,
move deadlines, grants, and the command unit, in this order. -/
def State.due (s : State) : Option Instr :=
  if s.owedDue then some .owedMarkerService
  else if s.heldDue then some .heldResponseOffer
  else match allDids.find? s.cutoverDue with
  | some d => some (.drainedCutover d)
  | none => match grantKeys.find? fun k => s.expiryDue k.1 k.2.1 k.2.2 with
  | some k => some (.grantExpiry k.1 k.2.1 k.2.2)
  | none => match allDids.find? s.moveDue with
  | some d => some (.moveDeadline d)
  | none => match arbiterKeys.find? fun k => (s.candidate k.1 k.2).isSome with
  | some k => some (.grantIssue k.1 k.2)
  | none => s.commandDue

/-- One microsecond of the element's clock passes (R78, R83, R145). -/
def State.tick (s : State) : State := { s with now := s.now + 1 }

end Sys2Proof.Machine
end

