-- ==== Sys2Proof/Machine/Dispatch.lean ====
section
/-! DEFINITION. The dispatch: one arm for each row of the table of operations and events. -/

namespace Sys2Proof.Machine

def exec (i : Instr) (s : State) : Host.Outcome State Fault Refusal :=
  match i with
  | .deviceReset straps => Sys2Proof.Machine.execDeviceReset straps s
  | .ingressCell port cell => Sys2Proof.Machine.execIngressCell port cell s
  | .slip port kind => Sys2Proof.Machine.execSlip port kind s
  | .stuckLineAssert port bits => Sys2Proof.Machine.execStuckLineAssert port bits s
  | .stuckBlockEnd port bits => Sys2Proof.Machine.execStuckBlockEnd port bits s
  | .qualityCompletion port figure => Sys2Proof.Machine.execQualityCompletion port figure s
  | .slot port => Sys2Proof.Machine.execSlot port s
  | .grantIssue did cls => Sys2Proof.Machine.execGrantIssue did cls s
  | .grantExpiry src did cls => Sys2Proof.Machine.execGrantExpiry src did cls s
  | .owedMarkerService => Sys2Proof.Machine.execOwedMarkerService s
  | .drainedCutover did => Sys2Proof.Machine.execDrainedCutover did s
  | .moveDeadline did => Sys2Proof.Machine.execMoveDeadline did s
  | .heldResponseOffer => Sys2Proof.Machine.execHeldResponseOffer s
  | .identify => Sys2Proof.Machine.execIdentify s
  | .portSet => Sys2Proof.Machine.execPortSet s
  | .portGet => Sys2Proof.Machine.execPortGet s
  | .classSet => Sys2Proof.Machine.execClassSet s
  | .poolSet => Sys2Proof.Machine.execPoolSet s
  | .lifetimeSet => Sys2Proof.Machine.execLifetimeSet s
  | .mapSet => Sys2Proof.Machine.execMapSet s
  | .mapMove => Sys2Proof.Machine.execMapMove s
  | .mapGet => Sys2Proof.Machine.execMapGet s
  | .groupSet => Sys2Proof.Machine.execGroupSet s
  | .groupGet => Sys2Proof.Machine.execGroupGet s
  | .noticeExpect => Sys2Proof.Machine.execNoticeExpect s
  | .noticeRead => Sys2Proof.Machine.execNoticeRead s
  | .countersRead => Sys2Proof.Machine.execCountersRead s
  | .testStart => Sys2Proof.Machine.execTestStart s
  | .testStop => Sys2Proof.Machine.execTestStop s
  | .testRead => Sys2Proof.Machine.execTestRead s
  | .linesSet => Sys2Proof.Machine.execLinesSet s
  | .fabricReset => Sys2Proof.Machine.execFabricReset s
  | .badCommand => Sys2Proof.Machine.execBadCommand s
  | .checkerSync port bits => Sys2Proof.Machine.execCheckerSync port bits s
  | .testBlockEnd port bits => Sys2Proof.Machine.execTestBlockEnd port bits s
  | .timebaseCompletion port bits => Sys2Proof.Machine.execTimebaseCompletion port bits s

end Sys2Proof.Machine
end

