-- ==== Sys2Proof/Machine/Step.lean ====
section
/-! DEFINITION. One step of the block: the command at the front of the queue, or, while none waits, the step
the element owes of itself, or a microsecond of its clock (log entry 5). -/

namespace Sys2Proof.Machine

/-- One step. A waiting command is taken from the front of the queue and carried out on the state with the
rest of the queue. On an empty queue the step that is due is carried out, and when none is due time passes. -/
def step (s : State) : Host.Outcome State Fault Refusal :=
  match s.pending with
  | c :: rest => exec c { s with pending := rest }
  | [] =>
    match s.due with
    | some c => exec c s
    | none => .next s.tick

/-- The command a table word spells put at the front of the queue; the state unchanged where the word spells
none, which is every word (Sys2Proof/Decode.lean). -/
def State.withFetchWord (s : State) (nbits w : Nat) : State :=
  match decodeTableWord nbits w with
  | some c => { s with pending := c :: s.pending }
  | none => s

end Sys2Proof.Machine
end

