-- ==== Sys2Proof/Safety.lean ====
section
/-! DEFINITION. What a safe run keeps: the laws the manual states of the whole element, as predicates of the
state, and the shape of a command's answer. Claims are stated in these terms. -/

namespace Sys2Proof.Machine

/-! ### Runs -/

/-- A predicate that every step keeps, from every state that meets it. -/
def KeptByEveryStep (law : State → Prop) : Prop :=
  ∀ s t : State, law s → step s = .next t → law t

/-! ### What the stores and lists may hold -/

/-- Credits: for every port, h and o together are at most 8 (R99, R155). -/
def State.CreditLaw (s : State) : Prop :=
  ∀ p : PortId, (s.port p).held + (s.port p).owed ≤ 8

/-- The element allowance use is the number of element cells in the 24 element lists, at most 32
(R110, R157). -/
def State.ElementLaw (s : State) : Prop :=
  s.elementUse = (allPorts.map fun p => (s.port p).elements.length).sum ∧ s.elementUse ≤ 32

/-- The bounded lists: 16 commands, 64 markers, 8 grants and 4 different refusals for each port, no owed
marker twice, and none owed while a marker store is free (R47, R69, R77, R101, R158). -/
def State.ListLaw (s : State) : Prop :=
  s.cmdQueue.length ≤ 16 ∧ s.markerUse ≤ 64 ∧ s.owedMarkers.Nodup ∧
  (s.markerUse < 64 → s.owedMarkers = []) ∧
  ∀ p : PortId, (s.port p).grantOutbox.length ≤ 8 ∧ (s.port p).refusalOutbox.length ≤ 4 ∧
    (s.port p).refusalOutbox.Nodup

/-- The multicast pool use is the number of stored cells and within the pool size, stored cells are named
apart, and each has a fan-out of at least 1 (R136). -/
def State.PoolLaw (s : State) : Prop :=
  s.poolUse = s.mcCells.length ∧ s.poolUse ≤ s.poolSize ∧ (s.mcCells.map fun m => m.name).Nodup ∧
  (∀ m ∈ s.mcCells, m.name < s.mcNext) ∧ ∀ m ∈ s.mcCells, 1 ≤ m.fanOut

/-- The multicast hold agrees with the free multicast stores: on at or below Hon, off at or above the hold-off
threshold in effect (R137). -/
def State.HoldLaw (s : State) : Prop :=
  (s.poolSize - s.poolUse ≤ s.holdOn → s.mcHold = true) ∧
  (max s.holdOff (s.holdOn + 1) ≤ s.poolSize - s.poolUse → s.mcHold = false)

/-- The sum of the excesses never exceeds the shared pool (R50). -/
def State.SharedPoolLaw (s : State) : Prop := (s.excessSum : Int) ≤ s.sharedPool

/-! ### Settings -/

/-- The settings of one port are in range (section 2.10). -/
def Settings.InRange (o : Settings) : Prop :=
  o.stuckN ≤ 255 ∧ o.stuckK ≤ 63 ∧ o.qualA ≤ 63 ∧ o.qualD ≤ 63 ∧ 1 ≤ o.cadence.length ∧
    o.cadence.length ≤ 16

/-- The settings of a granted class are in range (R166). -/
def ClassSettings.InRange (k : ClassSettings) : Prop :=
  1 ≤ k.grantMax ∧ k.grantMax ≤ 64 ∧ -3 ≤ k.exponent ∧ k.exponent ≤ 3 ∧ 1 ≤ k.weight ∧ k.weight ≤ 15 ∧
    k.mcLimit ≤ 1024

/-- Every setting of the element is in range, the shared pool is at least 1024, and at most two ports have
report set (R60, R61, R82, R138, R164, R166). -/
def State.SettingsLaw (s : State) : Prop :=
  (∀ p : PortId, (s.port p).settings.InRange) ∧
  s.classes.c1.InRange ∧ s.classes.c2.InRange ∧ s.classes.c3.InRange ∧
  2 ≤ s.lifetime ∧ s.lifetime ≤ 250 ∧ s.poolSize ≤ 8192 ∧ s.poolSize % 64 = 0 ∧ s.holdOn ≤ 8192 ∧
  s.holdOff ≤ 8192 ∧ (∀ d : Did, (s.did d).floor ≤ 512) ∧ 1024 ≤ s.sharedPool ∧
  s.reportPorts.length ≤ 2

/-! ### Ranges -/

/-- The round state of a scheduler stays in its ranges (R112): a pattern of 1 to 16 slots and a position in it, 0
where the slot that is open ends with a wrap, as it always does with a pattern of length 1 (R113, R114). -/
def Round.InRange (r : Round) : Prop :=
  1 ≤ r.pattern.length ∧ r.pattern.length ≤ 16 ∧ r.position < r.pattern.length ∧
  (r.wraps = true → r.position = 0) ∧ (r.pattern.length = 1 → r.wraps = true) ∧
  (∀ c : GClass, r.budget.get c ≤ 15 ∧ r.didPointer.get c ≤ 31) ∧ r.c0Pointer ≤ 32

/-- The stuck-line monitor is within its block of 1024 bits, and counts clean blocks while asserted alone (R31). -/
def StuckMonitor.InRange (m : StuckMonitor) : Prop :=
  m.blockBits < 1024 ∧ (m.asserted = false → m.cleanBlocks = 0)

/-- The pattern unit stays in its ranges (R183): progress below the period, USER positions below 64, bits of a block
below 128, with errors at most its bits, and a bad-block run of at most 4, of 4 only under sync-mask (R184 to R187).
IN_SYNC only while the test runs, with sync-ever set; in SEARCHING the bad-block run is 0, and a search holds at most
its seed (R185, R186, R189). A checker that is off counts nothing, and no result is kept
in the continuous timebase (R187). -/
def PatternUnit.InRange (u : PatternUnit) : Prop :=
  u.genPos < 64 ∧ u.chkPos < 64 ∧ u.blockBits < 128 ∧ u.blockErrors ≤ u.blockBits ∧ u.badRun ≤ 4 ∧
  (u.badRun = 4 → u.settings.syncMask = true ∧ u.syncEver = true) ∧
  (u.sync = .inSync → u.running = true ∧ u.syncEver = true) ∧
  (u.sync = .searching → u.badRun = 0) ∧
  (∀ k length, (k, length) ∈ [(Pattern.p7, 7), (.p23, 23), (.p31, 31)] → u.settings.chkPattern = k →
    u.seeded ≤ length) ∧
  (∀ period, (u.settings.timebase, period) ∈
      [(Timebase.bits24, 2 ^ 24), (.bits32, 2 ^ 32), (.bits40, 2 ^ 40)] → u.progress < period) ∧
  (u.settings.chkPattern = .off → u.sync = .searching ∧ u.progress = 0 ∧ u.errorCount = 0) ∧
  (u.settings.timebase = .continuous → u.lastResult = 0)

/-- Every port keeps its scheduler, its stuck-line monitor and its pattern unit in range, and the unit runs only
in TEST, where a search, before the first slot of the test too, holds fewer than 64 matches (R31, R112, R183, R185,
R189). -/
def State.RangeLaw (s : State) : Prop :=
  ∀ p : PortId, (s.port p).round.InRange ∧ (s.port p).stuck.InRange ∧ (s.port p).test.InRange ∧
    ((s.port p).test.running = true → (s.port p).link = .test) ∧
    ((s.port p).link = .test → (s.port p).test.sync = .searching → (s.port p).test.matchRun < 64)

/-! ### Links -/

/-- What the link state of a port says of the port: no fault cause stands in ACQUIRING, WAITING and UP and
one stands in FAULTED (R35, R36); the partner-aligned flag is set in UP alone and the hold flags are clear
outside WAITING and UP (R22, R23, R26, R27); a port with enable clear is in DISABLED or TEST, and one in
DISABLED has enable clear, an empty elastic buffer and its monitors reset (R38, R39). -/
def Port.LinkLaw (P : Port) : Prop :=
  match P.link with
  | .disabled => P.settings.enable = false ∧ P.elastic = 0 ∧ P.stuck = .reset ∧ P.quality = .reset ∧
      P.partnerAligned = false ∧ P.holds = .const false ∧ P.alignCount = 0 ∧ P.failCount = 0
  | .acquiring => P.settings.enable = true ∧ P.faultCause = false ∧ P.elastic = 4 ∧
      P.partnerAligned = false ∧ P.holds = .const false ∧ P.alignCount < 16 ∧ P.failCount = 0
  | .waiting => P.settings.enable = true ∧ P.faultCause = false ∧ P.elastic = 4 ∧
      P.partnerAligned = false ∧ P.alignCount = 16 ∧ P.failCount < 4
  | .up => P.settings.enable = true ∧ P.faultCause = false ∧ P.elastic = 4 ∧
      P.partnerAligned = true ∧ P.alignCount = 16 ∧ P.failCount < 4
  | .faulted => P.settings.enable = true ∧ P.faultCause = true ∧ P.elastic = 4 ∧
      P.partnerAligned = false ∧ P.holds = .const false ∧ P.alignCount = 0 ∧ P.failCount = 0
  | .test => P.elastic = 4 ∧ P.partnerAligned = false ∧ P.holds = .const false ∧ P.alignCount = 0 ∧
      P.failCount = 0

/-- Every port keeps its link law, and what a port that is not UP holds for its card is empty: no bid
entry, grant record, grant outbox entry or refusal outbox entry, no element cell and no owed credit
(R64, R125, R156). -/
def State.LinkLaw (s : State) : Prop :=
  ∀ p : PortId, (s.port p).LinkLaw ∧
    (s.isUp p = false →
      (∀ (d : Did) (c : GClass), s.grant p d c = none ∧ bidOf p (s.bids d c) = none) ∧
      (s.port p).grantOutbox = [] ∧ (s.port p).refusalOutbox = [] ∧ (s.port p).elements = [] ∧
      (s.port p).owed = 0)

/-- The match state of every port is that of its mask and expected value on the watched conditions of the port as
they stand (R174, R175). -/
def State.NoticeLaw (s : State) : Prop :=
  ∀ p : PortId, (s.port p).watchMatch = true ↔
    ∀ i : Fin 5, (s.port p).watchMask.getLsbD i = true →
      (s.port p).conditions.getLsbD i = (s.port p).watchExpect.getLsbD i

/-! ### Destinations -/

/-- A DID that is UNMAPPED or destination-down holds nothing: its queues are empty, it has no bid entry,
grant record or owed marker, its train entries are IDLE and no snapshot names it (R105, R111, R140,
R143). -/
def State.DestDownLaw (s : State) : Prop :=
  ∀ d : Did, s.reachable d = false →
    (∀ c : Cls, s.queue d c = []) ∧ (∀ c : GClass, s.bids d c = []) ∧
    (∀ k ∈ s.owedMarkers, k.did ≠ d) ∧
    ∀ p : PortId, (∀ c : GClass, s.grant p d c = none) ∧ (∀ c : Cls, s.train p d c = .idle) ∧
      ∀ c : GClass, DidSet.has (s.mcTrain p c).snapshot d = false

/-- A MOVING DID is not drained: the event that drains it cuts it over (R148). -/
def State.MoveLaw (s : State) : Prop :=
  ∀ d : Did, (s.did d).map.isMoving = true → s.drained d = false

/-! ### Accounts -/

/-- The entry is a unicast or class-0 cell. -/
def QEntry.isCell : QEntry → Bool
  | .cell _ => true
  | _ => false

/-- The entry is a cell from port `p`. -/
def QEntry.isFrom (p : PortId) : QEntry → Bool
  | .cell x => decide (x.src = p)
  | _ => false

/-- The entry is a MARK entry. -/
def QEntry.isMark : QEntry → Bool
  | .mark _ _ => true
  | _ => false

/-- The entry is a reference to a stored multicast cell. -/
def QEntry.isRef : QEntry → Bool
  | .mref _ => true
  | _ => false

/-- The MARK entries in the four queues of a DID. -/
def DidState.marks (D : DidState) : Nat :=
  D.queues.c0.countP QEntry.isMark + D.queues.c1.countP QEntry.isMark +
    D.queues.c2.countP QEntry.isMark + D.queues.c3.countP QEntry.isMark

/-- Open grant records and their bids (R64, R71): a queue holds one entry for each source, with a backlog
of 1..255, and an open record has a remaining count from 1 to the backlog of its entry. The unsent grants of a
record (R72, R77, R79): an outbox holds one entry for each (d, c), each with an open record whose deadline is
absent and a quota from 1 to its remaining count, and a deadline is absent only while such an entry waits. -/
def State.GrantLaw (s : State) : Prop :=
  (∀ (d : Did) (c : GClass), ((s.bids d c).map fun e => e.src).Nodup ∧
    (∀ e ∈ s.bids d c, 1 ≤ e.backlog ∧ e.backlog ≤ 255) ∧
    ∀ (p : PortId) (g : GrantRec), s.grant p d c = some g →
      (∃ e ∈ s.bids d c, e.src = p ∧ 1 ≤ g.remaining ∧ g.remaining ≤ e.backlog) ∧
      (g.deadline = none ↔ ∃ x ∈ (s.port p).grantOutbox, x.did = d ∧ x.cls = c)) ∧
  ∀ p : PortId, ((s.port p).grantOutbox.map fun x => (x.did, x.cls)).Nodup ∧
    ∀ x ∈ (s.port p).grantOutbox, ∃ g : GrantRec, s.grant p x.did x.cls = some g ∧
      1 ≤ x.quota ∧ x.quota ≤ g.remaining

/-- The references to stored multicast cells: the reference count of a queue is the number of references it
holds, each reference names a stored cell, and the fan-out of a stored cell is the number of references to it
in all the queues. A queue of class 0 holds none (R132, R135, R136). -/
def State.RefLaw (s : State) : Prop :=
  (∀ (d : Did) (c : GClass), (s.did d).mcRefs.get c = (s.queue d c.cls).countP QEntry.isRef) ∧
  (∀ d : Did, (s.queue d .c0).countP QEntry.isRef = 0) ∧
  (∀ (d : Did) (c : Cls) (n : Nat), .mref n ∈ s.queue d c → ∃ m ∈ s.mcCells, m.name = n) ∧
  ∀ m ∈ s.mcCells, m.fanOut =
    (allDids.map fun d => (GClass.all.map fun c => (s.queue d c.cls).count (.mref m.name)).sum).sum

/-- The four accounts of unicast cells, class-0 cells, commands and MARK entries: the occupied part of U_dc is
the number of unicast cells in the queue (d, c), its reserved part is the sum of the remaining counts, h of a
port is the number of its class-0 cells and commands, and the marker use is the number of MARK entries (R45,
R47, R49, R155). The accounts of element cells and of stored MDATA cells are those of ElementLaw and PoolLaw. -/
def State.AccountLaw (s : State) : Prop :=
  (∀ (d : Did) (c : GClass), (s.usage d c).occupied = (s.queue d c.cls).countP QEntry.isCell ∧
    (s.usage d c).reserved = (allPorts.map fun p => remainingOf (s.grant p d c)).sum) ∧
  (∀ p : PortId, (s.port p).held =
    (allDids.map fun d => (s.queue d .c0).countP (QEntry.isFrom p)).sum +
      s.cmdQueue.countP fun x => decide (x.src = p)) ∧
  s.markerUse = (allDids.map fun d => (s.did d).marks).sum

/-! ### Markers -/

/-- `t` has the markers of `ks`, a list of different keys made in order: each goes to the tail of its queue while
a marker store is free, and the others are owed, no key twice (R47, R100, R101). -/
def State.Marked (s t : State) (ks : List MarkerKey) : Prop :=
  ∀ free : Nat, free = 64 - s.markerUse →
    t.markerUse = s.markerUse + min ks.length free ∧
    t.owedMarkers = s.owedMarkers ++ (ks.drop free).filter (fun k => !decide (k ∈ s.owedMarkers)) ∧
    ∀ (d : Did) (c : Cls), t.queue d c = s.queue d c ++
      ((ks.take free).filter fun k => decide (k.did = d ∧ k.cls = c)).map fun k => .mark k.src k.mc

/-! ### Refusals -/

/-- `Q` is what port `P` becomes, in its refusal outbox and its REFUSAL_LOST counter, when the refusals of `rs`, a
list of different entries, are queued to it one by one (R69). -/
def Port.Refused (P Q : Port) (rs : List RefusalEntry) : Prop :=
  ∀ (fresh : List RefusalEntry) (room : Nat), room = 4 - P.refusalOutbox.length →
    fresh = (if P.link = .up then rs.filter (fun r => !decide (r ∈ P.refusalOutbox)) else []) →
    Q.refusalOutbox = P.refusalOutbox ++ fresh.take room ∧
    Q.counters.refusalLost = countUpBy P.counters.refusalLost (fresh.drop room).length

/-- Port `q` holds the refusal `r` in `t`, or counted a refusal lost at a full outbox on the way from `s` (R69). -/
def State.RefusedOrLost (s t : State) (q : PortId) (r : RefusalEntry) : Prop :=
  r ∈ (t.port q).refusalOutbox ∨
    (4 ≤ (t.port q).refusalOutbox.length ∧
      ((s.port q).counters.refusalLost.toNat < (t.port q).counters.refusalLost.toNat ∨
        (t.port q).counters.refusalLost = BitVec.allOnes 32))

/-! ### Port-down -/

/-- `ks` are the keys a port-down of `p` ends as a source: one for each train of the table or of a multicast
snapshot that is not IDLE, but for the DIDs mapped to `p`, in ascending order of DID, then of class, the unicast key
before the multicast one (R104, R139). No two lists meet it. -/
def State.EndedTrains (s : State) (p : PortId) (ks : List MarkerKey) : Prop :=
  (∀ k : MarkerKey, k ∈ ks ↔ k.src = p ∧ s.mapsTo k.did p = false ∧
    ((k.mc = false ∧ s.train p k.did k.cls ≠ .idle) ∨
      (k.mc = true ∧ ∃ g : GClass, k.cls = g.cls ∧ (s.mcTrain p g).state ≠ .idle ∧
        DidSet.has (s.mcTrain p g).snapshot k.did = true))) ∧
  ks.Pairwise fun a b => a.did < b.did ∨ (a.did = b.did ∧
    (a.cls.code < b.cls.code ∨ (a.cls = b.cls ∧ a.mc = false ∧ b.mc = true)))

/-- What the port-down of `p` on the way from `s` to `t` leaves, with the share of every block.

What `p` held for its card as a source is gone: records, bids, outboxes, element cells, owed credits and trains
(R85, R104, R125, R139, R156). What the DIDs mapped to it held is gone, each entry of their queues counted FLUSH
(R87, R105, R123, R140), and a DID that was MOVING from `p` cuts over DRAINED in the same event (R148, R152;
GrantLaw says that no outbox entry stands without its record). A source that held a record or a bid for one of
those DIDs draws REVOKED and DEST_DOWN, where its outbox has room (R69, R86, R87). Each class-0 cell flushed, and
each command the event takes from the command queue, lowers h of its source by one, and o of that source rises by
one while it is UP (R124, R155, R156). A response held for `p` is
discarded and the command unit READY, and one held for another port takes a store that the element cells of `p`
free, in the event that frees it (R157, R159; DESIGN CHOICE, log entry 8). Every train of `p` toward
another card has its marker placed or owed (R104, R139), in the order of R104: placed up to a marker use
of 64 and owed from there on, and the stores that the flush of the DIDs of `p` returns place the oldest that are
owed (R100, R102, R104, R105; log entry 8 for the order of the shares). -/
def State.WentDown (s t : State) (p : PortId) : Prop :=
  ((t.port p).grantOutbox = [] ∧ (t.port p).refusalOutbox = [] ∧ (t.port p).elements = [] ∧
    (t.port p).owed = 0 ∧
    (∀ (d : Did) (c : GClass), t.grant p d c = none ∧ bidOf p (t.bids d c) = none) ∧
    (∀ (d : Did) (c : Cls), t.train p d c = .idle) ∧ ∀ c : GClass, t.mcTrain p c = ⟨.idle, 0⟩) ∧
  (∀ d : Did, (s.did d).map.isMoving = false → (t.did d).map = (s.did d).map) ∧
  (∀ d : Did, s.mapsTo d p = true →
    (∀ c : Cls, t.queue d c = []) ∧ (∀ c : GClass, t.bids d c = []) ∧ (∀ k ∈ t.owedMarkers, k.did ≠ d) ∧
    (t.did d).counters.flush = countUpBy (s.did d).counters.flush (s.did d).queued ∧
    (∀ q : PortId, (∀ c : GClass, t.grant q d c = none) ∧ (∀ c : Cls, t.train q d c = .idle) ∧
      ∀ c : GClass, DidSet.has (t.mcTrain q c).snapshot d = false) ∧
    (∀ target time code, (s.did d).map = .moving p target time code → s.GrantLaw → s.drained d = false →
      (t.did d).map = .mapped target ∧ (t.did d).lastMove = .drained ∧ (t.did d).moveDone = true) ∧
    ∀ (q : PortId) (c : GClass), q ≠ p → s.isUp q = true →
      (s.grant q d c ≠ none → s.RefusedOrLost t q ⟨c, d, .revoked⟩) ∧
      (bidOf q (s.bids d c) ≠ none → s.RefusedOrLost t q ⟨c, d, .destDown⟩)) ∧
  (∃ gone, s.cmdQueue = gone ++ t.cmdQueue ∧ ∀ (q : PortId) (n : Nat),
    n = ((allDids.filter fun d => s.mapsTo d p).map fun d => (s.queue d .c0).countP (QEntry.isFrom q)).sum +
      gone.countP (fun x => decide (x.src = q)) → n ≤ (s.port q).held →
    (t.port q).held = (s.port q).held - n ∧
    (q ≠ p → (t.port q).owed = (s.port q).owed + if s.isUp q then n else 0)) ∧
  (∀ f : Frame, s.cmdUnit = .holding p f → t.cmdUnit = .ready) ∧
  (∀ (q : PortId) (f : Frame), s.cmdUnit = .holding q f → q ≠ p → s.isUp q = true → s.elementUse ≤ 32 →
    if (s.port p).elements = [] then t.cmdUnit = .holding q f
    else t.cmdUnit = .ready ∧ f ∈ (t.port q).elements) ∧
  (∀ (d : Did) (c : Cls), s.mapsTo d p = false →
    ∃ ms, t.queue d c = s.queue d c ++ ms ∧
      ∀ e ∈ ms, ∃ src mc, e = .mark src mc ∧ (src = p ∨ ⟨src, d, c, mc⟩ ∈ s.owedMarkers)) ∧
  (∀ (d : Did) (c : Cls) (mc : Bool), s.mapsTo d p = false → s.reachable d = true →
    ((mc = false ∧ s.train p d c ≠ .idle) ∨
      (mc = true ∧ ∃ g : GClass, c = g.cls ∧ (s.mcTrain p g).state ≠ .idle ∧
        DidSet.has (s.mcTrain p g).snapshot d = true)) →
    .mark p mc ∈ t.queue d c ∨ ⟨p, d, c, mc⟩ ∈ t.owedMarkers) ∧
  (∀ ks, s.EndedTrains p ks → s.owedMarkers = [] → s.markerUse + ks.length ≤ 64 → t.owedMarkers = [] ∧
    ∀ (d : Did) (c : Cls), s.mapsTo d p = false →
      t.queue d c = s.queue d c ++
        (ks.filter fun k => decide (k.did = d ∧ k.cls = c)).map fun k => .mark p k.mc) ∧
  ∀ (ks waiting : List MarkerKey) (free back : Nat), s.EndedTrains p ks → s.ListLaw → s.DestDownLaw →
    free = 64 - s.markerUse → back = (allDids.map fun d => if s.mapsTo d p then (s.did d).marks else 0).sum →
    back ≤ s.markerUse →
    waiting = (s.owedMarkers ++ (ks.drop free).filter fun k => !decide (k ∈ s.owedMarkers)).filter
      (fun k => !s.mapsTo k.did p) →
    t.owedMarkers = waiting.drop back ∧
    t.markerUse = s.markerUse + min ks.length free + min back waiting.length - back ∧
    ∀ (d : Did) (c : Cls), s.mapsTo d p = false →
      t.queue d c = s.queue d c ++
        ((ks.take free ++ waiting.take back).filter fun k => decide (k.did = d ∧ k.cls = c)).map fun k =>
          .mark k.src k.mc

/-! ### Answers to commands -/

/-- The command unit can take `cmd` from the head of the queue as a command of code `code`, and its source has
may-command set and holds the command's credit, as it does in every state a run reaches (AccountLaw). Nothing is
said of the link of the source, nor of the element allowance (R155, R159, R160). -/
structure Ready (s : State) (cmd : CmdCell) (rest : List CmdCell) (code : Option Code) : Prop where
  unit : s.cmdUnit = .ready
  queue : s.cmdQueue = cmd :: rest
  reading : cmd.reading = code
  may : (s.port cmd.src).settings.mayCommand = true
  held : 1 ≤ (s.port cmd.src).held

/-- The port of a command that was taken: one unit leaves h, and goes to o while the port is UP (R155). -/
def Port.credited (P : Port) : Port :=
  { P with held := P.held - 1, owed := if P.link = .up then P.owed + 1 else P.owed }

/-- The state with the command at the head of the queue taken (R155, R159). -/
def State.taken (s : State) (cmd : CmdCell) (rest : List CmdCell) : State :=
  { s with cmdQueue := rest, ports := s.ports.set cmd.src (s.port cmd.src).credited }

/-- The state with the response `f` offered to port `p`: discarded where `p` is not UP, at the tail of its element
list while the element allowance has room, and otherwise held by the command unit (R157, R159). -/
def State.responded (s : State) (p : PortId) (f : Frame) : State :=
  if (s.port p).link ≠ .up then s
  else if s.elementUse < 32 then
    { s with elementUse := s.elementUse + 1,
             ports := s.ports.set p { s.port p with elements := (s.port p).elements ++ [f] } }
  else { s with cmdUnit := .holding p f }

/-- The state with the command at the head of the queue taken and answered with `f`, and nothing else
changed (R155, R157, R159). -/
def State.answered (s : State) (cmd : CmdCell) (rest : List CmdCell) (f : Frame) : State :=
  (s.taken cmd rest).responded cmd.src f

end Sys2Proof.Machine
end

