-- ==== Sys2Proof/Certificates/Slice0/Obligations.lean ====
section
/-! DEFINITION. The statements for the provers. Each is a proposition over the model, with the rule or
section it formalises in its docstring. -/

open Sys2Proof Sys2Proof.Machine

/-! ### The step and the queue of waiting commands -/

/-- A step with a command at the front of the queue is that command, carried out on the state with the
rest of the queue. -/
def Obligations.StepRunsTheFrontCommand : Prop :=
  ∀ (c : Instr) (rest : List Instr) (s : State), s.pending = c :: rest →
    step s = exec c { s with pending := rest }

/-- Every command completes in a next state, and leaves the commands that wait behind it. That DEVICE_RESET
keeps those commands is the model's choice (log entry 2), and so is that a row whose event cannot occur in the
present state completes with the state unchanged (log entry 6). -/
def Obligations.EveryCommandCompletes : Prop :=
  ∀ (c : Instr) (s : State), ∃ t, exec c s = .next t ∧ t.pending = s.pending

/-- What no other command touches: each setting is written by its own command alone, the plane number by
none, the entry of a DID by map commands, its deadline, FABRIC-RESET and, at any event, the drained cutover of
a MOVING DID, and the link state of a port by an event at that port, a command that names ports, or
FABRIC-RESET. The clock stands still but at a deadline (the model's choice, log entry 7), and CMD_LOST falls by
COUNTERS-READ alone (R25, R42, R52, R60, R82, R127, R142, R148, R163, R174, R179, R181, R183). -/
def Obligations.SettingsChangeOnlyByTheirCommands : Prop :=
  ∀ (c : Instr) (s t : State), exec c s = .next t → (∀ straps, c ≠ .deviceReset straps) →
    (c ≠ .classSet → t.classes = s.classes) ∧ (c ≠ .lifetimeSet → t.lifetime = s.lifetime) ∧
    (c ≠ .groupSet → t.groups = s.groups) ∧
    (c ≠ .linesSet → t.status0 = s.status0 ∧ t.status1 = s.status1) ∧ t.plane = s.plane ∧
    (c ≠ .poolSet → t.poolSize = s.poolSize ∧ t.holdOn = s.holdOn ∧ t.holdOff = s.holdOff ∧
      ∀ d : Did, (t.did d).floor = (s.did d).floor) ∧
    (c ≠ .countersRead → s.cmdLost.toNat ≤ t.cmdLost.toNat) ∧
    ((∀ p d g, c ≠ .grantExpiry p d g) → (∀ d, c ≠ .moveDeadline d) → t.now = s.now) ∧
    (∀ d : Did, (t.did d).map ≠ (s.did d).map →
      c ∈ [.mapSet, .mapMove, .fabricReset, .moveDeadline d] ∨
      ∃ port target time code, (s.did d).map = .moving port target time code ∧
        (t.did d).map = .mapped target ∧ (t.did d).lastMove = .drained ∧ (t.did d).moveDone = true) ∧
    ∀ p : PortId, (c ≠ .portSet → (t.port p).settings = (s.port p).settings) ∧
      (c ≠ .testStart → (t.port p).test.settings = (s.port p).test.settings) ∧
      (c ≠ .noticeExpect → (t.port p).watchMask = (s.port p).watchMask ∧
        (t.port p).watchExpect = (s.port p).watchExpect) ∧
      ((t.port p).link ≠ (s.port p).link →
        c ∈ [.portSet, .testStart, .testStop, .fabricReset] ∨ (∃ cell, c = .ingressCell p cell) ∨
        (∃ k, c = .slip p k) ∨ (∃ bits, c = .stuckLineAssert p bits) ∨
        (∃ bits, c = .stuckBlockEnd p bits) ∨ ∃ figure, c = .qualityCompletion p figure)

/-! ### Laws that every step keeps -/

/-- The state after device reset meets every law of the element. -/
def Obligations.ResetMeetsEveryLaw : Prop :=
  State.reset.CreditLaw ∧ State.reset.ElementLaw ∧ State.reset.ListLaw ∧ State.reset.PoolLaw ∧
    State.reset.SharedPoolLaw ∧ State.reset.SettingsLaw ∧ State.reset.LinkLaw ∧
    State.reset.DestDownLaw ∧ State.reset.MoveLaw ∧ State.reset.GrantLaw ∧ State.reset.RefLaw ∧
    State.reset.AccountLaw ∧ State.reset.NoticeLaw ∧ State.reset.HoldLaw ∧ State.reset.RangeLaw

/-- Credits, element cells, commands, markers, outboxes and the multicast pool stay within their bounds, a stored
multicast cell has a fan-out of at least 1, and no marker is owed while a marker store is free (R47, R69, R77,
R99, R101, R136, R157, R158). No MOVING DID stays drained after an event (R148), and the multicast hold agrees
with the free stores at every change of the pool, a departure or a flush among them (R136, R137). -/
def Obligations.BoundsAreKept : Prop :=
  (KeptByEveryStep fun s => s.CreditLaw ∧ s.ElementLaw ∧ s.ListLaw ∧ s.PoolLaw) ∧
  KeptByEveryStep State.MoveLaw ∧ KeptByEveryStep State.HoldLaw

/-- Every setting stays in its range, and at most two ports are report ports (R61, R162, R164). The sum of the
excesses never exceeds the shared pool (R50). The round state, the stuck-line monitor and the pattern unit of
every port stay in their ranges (R31, R112, R183), and the unit runs only in TEST, where a search holds fewer
than 64 matches (R185, R189). That the slot in which a port comes up with a pattern of length 1 ends with a wrap
(log entry 17), and that the bad-block run stays at 4 under sync-mask (log entry 12), are read by inference. -/
def Obligations.SettingsStayInRange : Prop :=
  KeptByEveryStep State.SettingsLaw ∧ KeptByEveryStep State.SharedPoolLaw ∧
    KeptByEveryStep fun s => s.SettingsLaw ∧ s.RangeLaw

/-- Link states agree with fault causes, flags and the enable setting, and a port that is not UP holds no
bid, grant, refusal, element cell or owed credit (R26, R27, R35, R36, R64). The match state of every port is that
of its mask and expected value on the watched conditions as they stand, so that every event that changes one
comes to the notice unit (R174, R175). The model's choices in it: the fill level of the elastic buffer is 4
between slips (log entry 10), the alignment count stays 16 once aligned, and the failure count is 0 in ACQUIRING
(log entry 9). -/
def Obligations.LinkStatesAreKept : Prop :=
  KeptByEveryStep State.LinkLaw ∧ KeptByEveryStep State.NoticeLaw

/-- A DID that is UNMAPPED or destination-down holds no entry, grant, bid, marker, train or snapshot place
(R111, R143). -/
def Obligations.DestinationsDownStayEmpty : Prop := KeptByEveryStep State.DestDownLaw

/-- Every open grant record has 1 ≤ remaining ≤ backlog ≤ 255, with one entry for each source (R64, R71). Every
grant outbox entry belongs to an open record, one to a record, with a quota from 1 to its remaining count, and
the deadline of a record is absent exactly while such an entry waits (R72, R77).
The settings in range and the destination-down law rule out states no run reaches. -/
def Obligations.GrantsStayWithinBacklog : Prop :=
  KeptByEveryStep fun s => s.SettingsLaw ∧ s.DestDownLaw ∧ s.GrantLaw

/-- The accounts of the buffer (R45): unicast cells, class-0 cells, commands, element cells, MARK entries and
stored multicast cells are each counted in their own, and the reserved part of a usage is the sum of the
remaining counts (R49). The fan-out of a stored multicast cell is the number of references to it in the queues,
and the reference count of a queue is the number it holds (R135, R136). -/
def Obligations.EveryStoreIsCounted : Prop :=
  KeptByEveryStep fun s => s.SettingsLaw ∧ s.DestDownLaw ∧ s.GrantLaw ∧ s.ElementLaw ∧ s.PoolLaw ∧
    s.RefLaw ∧ s.AccountLaw

/-! ### Resets -/

/-- R41: every port at device reset, and its first slot. -/
def Obligations.DeviceResetOfPorts : Prop :=
  ∀ (straps : BitVec 3) (s : State), ∃ t, exec (.deviceReset straps) s = .next t ∧
    ∀ p : PortId,
      (t.port p).link = .acquiring ∧ (t.port p).alignCount = 0 ∧ (t.port p).failCount = 0 ∧
      (t.port p).partnerAligned = false ∧ (t.port p).holds = ⟨false, false, false, false⟩ ∧
      (t.port p).elastic = 4 ∧
      (t.port p).stuck.asserted = false ∧ (t.port p).stuck.runLength = 0 ∧
      (t.port p).stuck.cleanBlocks = 0 ∧
      (t.port p).quality = { figure := 0, alarm := false } ∧
      (t.port p).lastDown = .none ∧
      (t.port p).settings =
        { enable := true, autoRecentre := true, payloadMode := .forward, squelch := false,
          qualityFault := true, stuckN := 15, stuckK := 7, qualA := 6, qualD := 12, cadence := [true],
          mayCommand := true, report := false } ∧
      ∃ u, exec (.slot p) t = .next u ∧
        (u.port p).sent = .cell (egressCell fillFields
          { aligned := false, plane := straps, mcHold := false, grants := [], refusal := none,
            credits := 0 } zeroPayload)

/-- Device reset of the other blocks (R44, R52, R63, R91, R107, R110, R112, R141, R142, R172, R174, R179, R181,
R182, R183), and what the status lines drive in any state (R182). That the commands that wait in the model's
queue stay is the model's choice (log entry 2); the reset input while it is held is left out (log entry 15). That
a change of the reset cadence stored before a first slot acts at that slot (`wraps`) is read by inference (log
entry 17). -/
def Obligations.DeviceResetOfTheElement : Prop :=
  (∀ (u : State) (drives : LineFunction → Prop),
    (drives .low ↔ False) → (drives .high ↔ True) →
    (drives .noticePending ↔ (∃ p : PortId, (u.port p).noticeFlag = true) ∨
      ∃ d : Did, (u.did d).moveDone = true) →
    (drives .anyFaulted ↔ ∃ p : PortId, (u.port p).link = .faulted) →
    (drives .mcHold ↔ u.mcHold = true) →
    (u.statusLines.1 = true ↔ drives u.status0) ∧ (u.statusLines.2 = true ↔ drives u.status1)) ∧
  ∀ (straps : BitVec 3) (s : State), ∃ t, exec (.deviceReset straps) s = .next t ∧
    t.sharedPool = 12000 ∧ t.poolSize = 2048 ∧ t.poolUse = 0 ∧ t.mcCells = [] ∧ t.lifetime = 40 ∧
    t.markerUse = 0 ∧ t.owedMarkers = [] ∧ t.holdOn = 192 ∧ t.holdOff = 384 ∧ t.mcHold = false ∧
    t.elementUse = 0 ∧ t.cmdQueue = [] ∧ t.cmdUnit = .ready ∧ t.cmdLost = 0 ∧
    t.status0 = .noticePending ∧ t.status1 = .anyFaulted ∧ t.statusLines = (false, false) ∧
    t.plane = straps ∧ t.pending = s.pending ∧
    t.classes = ⟨⟨32, 1, 8, 256⟩, ⟨16, 0, 4, 256⟩, ⟨8, -1, 2, 256⟩⟩ ∧
    (∀ g : GroupId, t.groups[g] = ⟨false, 0, false⟩) ∧
    (∀ d : Did, (t.did d).floor = 64 ∧ (t.did d).lastMove = .none ∧ (t.did d).moveDone = false ∧
      (t.did d).counters = ⟨0, 0, 0, 0, 0⟩ ∧
      (∀ c : GClass, t.usage d c = ⟨0, 0⟩ ∧ t.bids d c = [] ∧ (t.did d).mcRefs.get c = 0) ∧
      (∀ c : Cls, t.queue d c = []) ∧
      (∀ h : d.val < 24, (t.did d).map = .mapped ⟨d.val, h⟩) ∧ (24 ≤ d.val → (t.did d).map = .unmapped)) ∧
    ∀ p : PortId, (t.port p).held = 0 ∧ (t.port p).owed = 0 ∧ (t.port p).elements = [] ∧
      (t.port p).grantOutbox = [] ∧ (t.port p).refusalOutbox = [] ∧
      (t.port p).counters = ⟨0, 0, 0, 0, 0, 0, 0, 0, 0, 0, 0, 0, 0, 0, 0, 0⟩ ∧
      (t.port p).watchMask = 0 ∧ (t.port p).watchExpect = 0 ∧ (t.port p).watchMatch = true ∧
      (t.port p).noticeFlag = false ∧
      (t.port p).round = { pattern := [true], position := 0, wraps := true,
                           budget := ⟨8, 4, 2⟩, c0Pointer := 0, didPointer := ⟨0, 0, 0⟩ } ∧
      (t.port p).test.sync = .searching ∧ (t.port p).test.syncEver = false ∧
      (t.port p).test.errorCount = 0 ∧ (t.port p).test.progress = 0 ∧ (t.port p).test.lastResult = 0 ∧
      (t.port p).test.badRun = 0 ∧ (t.port p).test.settings =
        { genPattern := .off, chkPattern := .off, genInvert := false, chkInvert := false,
          timebase := .continuous, syncMask := false, user := 0 } ∧
      (∀ (d : Did) (c : GClass), t.grant p d c = none) ∧ (∀ (d : Did) (c : Cls), t.train p d c = .idle) ∧
      (∀ c : GClass, t.mcTrain p c = ⟨.idle, 0⟩)

/-- An accepted FABRIC-RESET: ports by R40, the buffer and the traffic state emptied, moves cut over
INTERRUPTED, and every setting, counter and group kept (R40, R58, R91, R107, R125, R141, R153, R171). -/
def Obligations.FabricResetEmptiesTheElement : Prop :=
  ∀ (s : State) (cmd : CmdCell) (rest : List CmdCell),
    s.cmdUnit = .ready → s.cmdQueue = cmd :: rest → cmd.reading = some .fabricReset →
    (s.port cmd.src).settings.mayCommand = true →
    ∃ t, exec .fabricReset s = .next t ∧
      (∀ p : PortId,
        (t.port p).settings = (s.port p).settings ∧ (t.port p).counters = (s.port p).counters ∧
        (t.port p).stuck = (s.port p).stuck ∧ (t.port p).quality = (s.port p).quality ∧
        (t.port p).test = (s.port p).test ∧ (t.port p).round = (s.port p).round ∧
        (t.port p).watchMask = (s.port p).watchMask ∧ (t.port p).watchExpect = (s.port p).watchExpect ∧
        (t.port p).elements = [] ∧ (t.port p).grantOutbox = [] ∧ (t.port p).refusalOutbox = [] ∧
        (t.port p).held = 0 ∧ (t.port p).owed = 0 ∧
        (∀ (d : Did) (c : GClass), t.grant p d c = none) ∧
        (∀ (d : Did) (c : Cls), t.train p d c = .idle) ∧
        (∀ c : GClass, t.mcTrain p c = ⟨.idle, 0⟩) ∧
        (if (s.port p).link = .disabled ∨ (s.port p).link = .test
         then (t.port p).link = (s.port p).link ∧ (t.port p).lastDown = (s.port p).lastDown
         else (t.port p).link = (if (s.port p).faultCause then .faulted else .acquiring) ∧
           (t.port p).lastDown = (if (s.port p).link = .up then .fabricReset else (s.port p).lastDown) ∧
           (t.port p).alignCount = 0 ∧ (t.port p).failCount = 0 ∧ (t.port p).elastic = 4 ∧
           (t.port p).partnerAligned = false ∧ (t.port p).holds = ⟨false, false, false, false⟩)) ∧
      (∀ d : Did,
        (t.did d).floor = (s.did d).floor ∧ (t.did d).counters = (s.did d).counters ∧
        (∀ c : GClass, t.usage d c = ⟨0, 0⟩ ∧ t.bids d c = [] ∧ (t.did d).mcRefs.get c = 0) ∧
        (∀ c : Cls, t.queue d c = []) ∧
        match (s.did d).map with
        | .moving _ target _ _ => (t.did d).map = .mapped target ∧ (t.did d).lastMove = .interrupted ∧
            (t.did d).moveDone = true
        | m => (t.did d).map = m ∧ (t.did d).lastMove = (s.did d).lastMove ∧
            (t.did d).moveDone = (s.did d).moveDone) ∧
      t.markerUse = 0 ∧ t.owedMarkers = [] ∧ t.poolUse = 0 ∧ t.mcCells = [] ∧ t.elementUse = 0 ∧
      t.cmdQueue = [] ∧ t.cmdUnit = .ready ∧ t.mcHold = decide (s.poolSize ≤ s.holdOn) ∧
      t.classes = s.classes ∧ t.lifetime = s.lifetime ∧ t.groups = s.groups ∧ t.poolSize = s.poolSize ∧
      t.holdOn = s.holdOn ∧ t.holdOff = s.holdOff ∧ t.cmdLost = s.cmdLost ∧ t.status0 = s.status0 ∧
      t.status1 = s.status1 ∧ t.plane = s.plane ∧ t.now = s.now

/-! ### Formats -/

/-- The header check divides by x^8+x^2+x+1 from zero and is inverted, and the payload check divides by
x^16+x^12+x^5+1 from all ones (R2, R3): each is given over no bytes and over one byte more, most significant bit
first, and is what bytes 15, and 13 and 14, of a header are held against. The checks of every egress cell match
at the card, an all-zero header fails its check (R2), and a frame sent in a payload is the frame read from it
(section 1.7), word 0 first and each word most significant byte first. The fields of an ingress header (R7 to
R10) and of an egress header (R11, R12) stand where section 1.6 puts them, and the cell fields of a FILL and of a
cell from the element are those of R11, a count of 128 as its code 127. A response echoes code and tag, and
carries its status value, and result words where it is DONE or CLAMPED (R17). -/
def Obligations.EgressChecksMatch : Prop :=
  headerPasses (Vector.replicate 16 0) = false ∧ headerCheck [] = 0xFF ∧ payloadCheck [] = 0xFFFF ∧
  (∀ (l : List Byte) (b : Byte) (r : Nat → BitVec 8), r 0 = ~~~headerCheck l ^^^ b →
    (∀ i, i < 8 → r (i + 1) = if (r i).getLsbD 7 then r i <<< 1 ^^^ 0x07 else r i <<< 1) →
    headerCheck (l ++ [b]) = ~~~r 8) ∧
  (∀ (l : List Byte) (b : Byte) (r : Nat → BitVec 16), r 0 = payloadCheck l ^^^ (b ++ (0 : Byte)) →
    (∀ i, i < 8 → r (i + 1) = if (r i).getLsbD 15 then r i <<< 1 ^^^ 0x1021 else r i <<< 1) →
    payloadCheck (l ++ [b]) = r 8) ∧
  (∀ h : HeaderBytes, headerPasses h = decide (headerCheck (h.toList.take 15) = h[15])) ∧
  (∀ c : RawCell, payloadPasses c = decide (payloadCheck c.payload.toList = c.header[13] ++ c.header[14])) ∧
  (∀ (c : CellFields) (l : LinkFields) (payload : Payload),
    headerPasses (egressCell c l payload).header = true ∧ payloadPasses (egressCell c l payload) = true ∧
    (egressCell c l payload).payload = payload) ∧
  fillFields = { kind := 0, cls := .c0, first := false, last := false, did := 0, count := 127, poison := false,
                 source := 0, elementOrigin := false, mc := false } ∧
  elementFields = { kind := 3, cls := .c0, first := true, last := true, did := 0, count := 127, poison := false,
                    source := 0, elementOrigin := true, mc := false } ∧
  (∀ i : Fin 128, zeroPayload[i] = 0) ∧
  (∀ f : Frame, payloadFrame (frameBytes f) = f) ∧
  (∀ (payload : Payload) (i : Fin 32) (b : Nat → Byte), (∀ j : Fin 128, b j = payload[j]) →
    (payloadFrame payload).word i = b (4 * i) ++ b (4 * i + 1) ++ b (4 * i + 2) ++ b (4 * i + 3)) ∧
  (∀ (h : HeaderBytes) (r : IngressHeader), IngressHeader.read h = r →
    r.kind = [Kind.fill, .data, .mdata, .ctrl, .mark].getD (h[0].extractLsb' 5 3).toNat .reserved ∧
    r.cls.code = h[0].extractLsb' 3 2 ∧ r.first = h[0].getLsbD 2 ∧ r.last = h[0].getLsbD 1 ∧
    r.aligned = h[0].getLsbD 0 ∧ (∀ c : Cls, r.holds.get c = h[1].getLsbD (4 + c.code.toNat)) ∧
    r.element = h[1].getLsbD 3 ∧ r.did.val = h[2].toNat % 32 ∧
    r.group.val = 256 * (h[1].toNat % 2) + h[2].toNat ∧ r.count.toNat = h[3].toNat % 128 ∧
    r.bids.length = 4 ∧
    ∀ (i : Nat) (b : BidSlot) (x y : Byte), r.bids[i]? = some b →
      h.toList[5 + 2 * i]? = some x → h.toList[6 + 2 * i]? = some y →
      b.valid = x.getLsbD 7 ∧ b.cls.code = x.extractLsb' 5 2 ∧ b.did.val = x.toNat % 32 ∧
      b.count = y.toNat) ∧
  (∀ (c : CellFields) (l : LinkFields) (payload : Payload) (h : HeaderBytes),
    (egressCell c l payload).header = h →
    h[0].extractLsb' 5 3 = c.kind ∧ h[0].extractLsb' 3 2 = c.cls.code ∧ h[0].getLsbD 2 = c.first ∧
    h[0].getLsbD 1 = c.last ∧ h[0].getLsbD 0 = l.aligned ∧
    (h[1].extractLsb' 3 5).toNat = c.did.val ∧ h[1].extractLsb' 0 3 = l.plane ∧
    h[2].getLsbD 7 = c.poison ∧ h[2].extractLsb' 0 7 = c.count ∧
    h[3].getLsbD 7 = c.mc ∧ h[3].getLsbD 6 = l.mcHold ∧ h[3].getLsbD 5 = c.elementOrigin ∧
    (h[3].extractLsb' 0 5).toNat = c.source.val ∧
    h[4].extractLsb' 6 2 = l.credits ∧ h[4].extractLsb' 2 4 = 0 ∧
    (l.refusal = none → h[4].extractLsb' 0 2 = 0 ∧ h[5] = 0) ∧
    (∀ (e : RefusalEntry) (why : Nat), l.refusal = some e →
      (e.reason, why) ∈ [(Reason.unmapped, 1), (.destDown, 2), (.revoked, 3)] →
      (h[4].extractLsb' 0 2).toNat = why ∧ h[5].getLsbD 7 = true ∧
      h[5].extractLsb' 5 2 = e.cls.cls.code ∧ (h[5].extractLsb' 0 5).toNat = e.did.val) ∧
    (∀ (i : Nat) (x y : Byte), i < 3 → h.toList[6 + 2 * i]? = some x → h.toList[7 + 2 * i]? = some y →
      (l.grants[i]? = none → x = 0 ∧ y = 0) ∧
      ∀ e : GrantEntry, l.grants[i]? = some e →
        x.getLsbD 7 = true ∧ x.extractLsb' 5 2 = e.cls.cls.code ∧ (x.extractLsb' 0 5).toNat = e.did.val ∧
        y.toNat = e.quota % 256) ∧
    h[12] = 0) ∧
  ∀ (f r : Frame) (st : Status) (value : Nat) (results : List Word), responseFrame f st results = r →
    (st, value) ∈ [(Status.done, 0), (.clamped, 1), (.busy, 2), (.denied, 3), (.badCommand, 4), (.badValue, 5),
      (.inUse, 6), (.lockout, 7)] → results.length ≤ 31 →
    (r.word 0).extractLsb' 24 8 = (f.word 0).extractLsb' 24 8 ∧
    (r.word 0).extractLsb' 16 8 = (f.word 0).extractLsb' 16 8 ∧
    ((r.word 0).extractLsb' 8 8).toNat = value ∧
    ((r.word 0).extractLsb' 0 8).toNat = (if value ≤ 1 then results.length else 0) ∧
    ∀ i, i < 31 → r.word (i + 1) = (if value ≤ 1 then results.getD i 0 else 0)

/-! ### The link -/

/-- Headers that cost a port its alignment (R4, R19, R23, R24, R26): one that fails its check in WAITING or
UP is counted, and at the fourth in a row the port goes to ACQUIRING; in other states nothing is counted, and in
DISABLED, FAULTED and TEST nothing at all is framed (R19). A
valid header with aligned clear takes a port out of UP with cause PARTNER, its bids and cell not taken. That
the failure count is 0 after the port has gone to ACQUIRING is read by inference (log entry 9). -/
def Obligations.HeadersThatCostAlignment : Prop :=
  (∀ (s : State) (p : PortId) (c : RawCell), headerPasses c.header = false →
    (((s.port p).link = .up ∨ (s.port p).link = .waiting) → (s.port p).failCount < 3 →
      exec (.ingressCell p c) s = .next (s.updPort p fun P =>
        { P with failCount := P.failCount + 1,
                 counters := { P.counters with hdrErr := countUp P.counters.hdrErr } })) ∧
    (((s.port p).link = .up ∨ (s.port p).link = .waiting) → (s.port p).failCount = 3 →
      (s.port p).faultCause = false →
      ∃ t, exec (.ingressCell p c) s = .next t ∧ (t.port p).link = .acquiring ∧
        (t.port p).failCount = 0 ∧ (t.port p).alignCount = 0 ∧ (t.port p).partnerAligned = false ∧
        (t.port p).holds = ⟨false, false, false, false⟩ ∧
        (t.port p).counters = { (s.port p).counters with hdrErr := countUp (s.port p).counters.hdrErr } ∧
        (t.port p).lastDown = (if (s.port p).link = .up then .headerLoss else (s.port p).lastDown)) ∧
    ((s.port p).link ≠ .up → (s.port p).link ≠ .waiting →
      ∃ t, exec (.ingressCell p c) s = .next t ∧ (t.port p).counters = (s.port p).counters)) ∧
  (∀ (s : State) (p : PortId) (c : RawCell), (s.port p).link ∈ [.disabled, .faulted, .test] →
    exec (.ingressCell p c) s = .next s) ∧
  ∀ (s : State) (p : PortId) (c : RawCell), headerPasses c.header = true → (s.port p).link = .up →
    (IngressHeader.read c.header).aligned = false → (s.port p).faultCause = false →
    ∃ t, exec (.ingressCell p c) s = .next t ∧ (t.port p).link = .acquiring ∧
      (t.port p).lastDown = .partner ∧ (t.port p).partnerAligned = false ∧
      (t.port p).holds = ⟨false, false, false, false⟩ ∧ (t.port p).failCount = 0 ∧
      (t.port p).counters = (s.port p).counters ∧ t.cmdQueue = s.cmdQueue

/-- The handshake (R21, R22, R23, R25, R112, R156). A valid header in WAITING is taken for its flags alone;
aligned it brings the port UP, with the round state set and the credits not held owed. That with a pattern of
length 1 the slot in which the port comes up ends with a wrap (`wraps`) is read by inference (log entry 17). The
sixteenth header in a row at the cell spacing ends ACQUIRING. -/
def Obligations.HandshakeBringsPortsUp : Prop :=
  (∀ (s : State) (p : PortId) (c : RawCell), headerPasses c.header = true → (s.port p).link = .waiting →
    ((IngressHeader.read c.header).aligned = false →
      exec (.ingressCell p c) s = .next (s.updPort p fun P =>
        { P with partnerAligned := false, holds := (IngressHeader.read c.header).holds,
                 failCount := 0 })) ∧
    ((IngressHeader.read c.header).aligned = true →
      ∃ t, exec (.ingressCell p c) s = .next t ∧ (t.port p).link = .up ∧
        (t.port p).partnerAligned = true ∧ (t.port p).holds = (IngressHeader.read c.header).holds ∧
        (t.port p).failCount = 0 ∧ (t.port p).held = (s.port p).held ∧
        (t.port p).owed = 8 - (s.port p).held ∧ (t.port p).counters = (s.port p).counters ∧
        (t.port p).round =
          { pattern := (s.port p).settings.cadence, position := 0,
            wraps := decide ((s.port p).settings.cadence.length = 1),
            budget := ⟨s.classes.c1.weight, s.classes.c2.weight, s.classes.c3.weight⟩,
            c0Pointer := 0, didPointer := ⟨0, 0, 0⟩ } ∧
        t.dids = s.dids ∧ t.cmdQueue = s.cmdQueue ∧ t.mcCells = s.mcCells ∧
        ∀ q : PortId, q ≠ p →
          ∃ fs, t.port q = { s.port q with elements := (s.port q).elements ++ fs })) ∧
  ∀ (s : State) (p : PortId) (c : RawCell), headerPasses c.header = true →
    (s.port p).link = .acquiring → (s.port p).searchBytes = [] → (s.port p).searchSkip = 0 →
    ((s.port p).alignCount < 15 →
      exec (.ingressCell p c) s = .next (s.updPort p fun P => { P with alignCount := P.alignCount + 1 })) ∧
    ((s.port p).alignCount = 15 →
      ∃ t, exec (.ingressCell p c) s = .next t ∧ (t.port p).alignCount = 16 ∧
        (t.port p).link = (if (IngressHeader.read c.header).aligned then .up else .waiting) ∧
        (t.port p).partnerAligned = (IngressHeader.read c.header).aligned ∧
        (t.port p).holds = (IngressHeader.read c.header).holds ∧ (t.port p).failCount = 0 ∧
        (t.port p).counters = (s.port p).counters ∧ t.dids = s.dids ∧ t.cmdQueue = s.cmdQueue)

/-- The byte search of ACQUIRING (R21, R22), one candidate at a time. `bytes` are the received bytes the search has
not passed, the cell's 144 behind those that were left, and the candidate starts where the skip ends. A candidate
that fails moves on by one byte with the count at 0, one that passes moves on by 144 bytes and raises the count,
and the one that brings the count to 16 ends ACQUIRING. Where fewer than 16 bytes are left at the candidate the
search waits for the next cell. An arrival is 144 received bytes here (log entry 9). -/
def Obligations.TheByteSearchFollowsTheStream : Prop :=
  ∀ (s : State) (p : PortId) (c : RawCell) (P : Port) (bytes : List Byte) (h : HeaderBytes),
    s.port p = P → P.link = .acquiring → bytes = P.searchBytes ++ c.header.toList ++ c.payload.toList →
    (∀ i : Fin 16, h[i] = bytes.getD (P.searchSkip + i.val) 0) →
    (bytes.length < P.searchSkip + 16 →
      exec (.ingressCell p c) s = .next (s.updPort p fun P =>
        { P with searchBytes := bytes.drop P.searchSkip, searchSkip := P.searchSkip - bytes.length })) ∧
    (P.searchSkip + 16 ≤ bytes.length → headerPasses h = false →
      exec (.ingressCell p c) s = exec (.ingressCell p c) (s.updPort p fun P =>
        { P with searchSkip := P.searchSkip + 1, alignCount := 0 })) ∧
    (P.searchSkip + 16 ≤ bytes.length → headerPasses h = true → P.alignCount < 15 →
      exec (.ingressCell p c) s = exec (.ingressCell p c) (s.updPort p fun P =>
        { P with searchSkip := P.searchSkip + 144, alignCount := P.alignCount + 1 })) ∧
    (P.searchSkip + 16 ≤ bytes.length → headerPasses h = true → 15 ≤ P.alignCount →
      ∃ t, exec (.ingressCell p c) s = .next t ∧ (t.port p).alignCount = 16 ∧ (t.port p).failCount = 0 ∧
        (t.port p).link = (if (IngressHeader.read h).aligned then .up else .waiting) ∧
        (t.port p).partnerAligned = (IngressHeader.read h).aligned ∧
        (t.port p).holds = (IngressHeader.read h).holds ∧ t.dids = s.dids ∧ t.cmdQueue = s.cmdQueue)

/-- A slip by link state, where no port goes down (R28, R29): the last clause takes a port that is WAITING with
auto-recentre clear to ACQUIRING; that its failure count is 0 there is read by inference (log entry 9). The
model's choices in it: a slip of a DISABLED port, whose buffer does not run, leaves the state (log entry 6), and
in ACQUIRING the search resumes with the next byte received, what it held dropped (log entry 9). -/
def Obligations.SlipsThatKeepTheState : Prop :=
  ∀ (s : State) (p : PortId) (k : SlipKind),
    ((s.port p).link = .disabled → exec (.slip p k) s = .next s) ∧
    ((s.port p).link = .faulted ∨ (s.port p).link = .test →
      exec (.slip p k) s = .next (s.updPort p fun P => { P with elastic := 4 })) ∧
    ((s.port p).link = .acquiring →
      exec (.slip p k) s = .next (s.updPort p fun P =>
        { P with elastic := 4, alignCount := 0, searchBytes := [], searchSkip := 0 })) ∧
    ((s.port p).link = .waiting ∨ (s.port p).link = .up → (s.port p).settings.autoRecentre = true →
      exec (.slip p k) s = .next (s.updPort p fun P =>
        { P with elastic := 4, counters := { P.counters with slip := countUp P.counters.slip } })) ∧
    ((s.port p).link = .waiting → (s.port p).settings.autoRecentre = false → (s.port p).faultCause = false →
      exec (.slip p k) s = .next (s.updPort p fun P =>
        { P with link := .acquiring, elastic := 4, alignCount := 0, failCount := 0, partnerAligned := false,
                 holds := ⟨false, false, false, false⟩, searchBytes := [], searchSkip := 0,
                 counters := { P.counters with slip := countUp P.counters.slip } }))

/-- A port-down, by every cause that is not a reset of the element: header loss and the partner (INGRESS_CELL), a
slip, a fault (the monitors, and PORT-SET of quality-fault), a test, and enable cleared. Each block takes its
share (R25, R85, R86, R87, R104, R105, R123, R124, R125, R139, R140, R148, R152, R155, R156, R157, R159), as
State.WentDown says it, with the credits of the class-0 cells flushed, and the keys of the ended trains as
State.EndedTrains does. That a response held for another port takes the store freed in the event itself, before a
BUSY could, is the model's choice (log entry 8). With it the whole of a slip that takes a port out of UP (R28);
that the failure count is 0 in ACQUIRING is read by inference (log entry 9). -/
def Obligations.PortDownReachesEveryBlock : Prop :=
  (∀ (c : Instr) (s t : State) (p : PortId), exec c s = .next t →
    (c ∈ [.portSet, .testStart] ∨ (∃ cell, c = .ingressCell p cell) ∨ (∃ k, c = .slip p k) ∨
      (∃ bits, c = .stuckLineAssert p bits) ∨ (∃ bits, c = .stuckBlockEnd p bits) ∨
      ∃ figure, c = .qualityCompletion p figure) →
    (s.port p).link = .up → (t.port p).link ≠ .up →
    s.WentDown t p ∧ t.cmdQueue = s.cmdQueue.drop (if c ∈ [.portSet, .testStart] then 1 else 0)) ∧
  ∀ (s : State) (p : PortId) (k : SlipKind), (s.port p).link = .up →
    (s.port p).settings.autoRecentre = false → (s.port p).faultCause = false →
    ∃ t, exec (.slip p k) s = .next t ∧ s.WentDown t p ∧
      (t.port p).link = .acquiring ∧ (t.port p).lastDown = .slip ∧
      (t.port p).counters = { (s.port p).counters with slip := countUp (s.port p).counters.slip } ∧
      (t.port p).settings = (s.port p).settings ∧ (t.port p).alignCount = 0 ∧ (t.port p).failCount = 0 ∧
      (t.port p).partnerAligned = false ∧ (t.port p).holds = ⟨false, false, false, false⟩ ∧
      (t.port p).elastic = 4 ∧ (t.port p).held ≤ (s.port p).held

/-- A run of identical bits at the stuck-line monitor (R30, R31, R32, R35). It starts at 1 with the first bit or
with one that differs. At the bit that brings it to (N+1) × 256, or that continues a run which a lowered N put
there or above, the monitor asserts, and outside TEST the port goes to FAULTED. The clean-block count starts at
0, where no block ends at that bit. A run below the threshold changes the monitor alone and asserts nothing. The
1024-bit blocks are counted continuously (R31): a bit that differs from the one before is the transition of its
block, and the next block starts without one. That bits for the monitor of a DISABLED port, which does not run,
leave the state is the model's choice (log entry 6). -/
def Obligations.StuckLineAsserts : Prop :=
  ∀ (s : State) (p : PortId) (v : Bool) (n run threshold : Nat) (P : Port) (m : StuckMonitor),
    s.port p = P → P.stuck = m → 0 < n → threshold = (P.settings.stuckN + 1) * 256 →
    run = (if m.lastBit = some v then m.runLength else 0) + n →
    (P.link = .disabled → exec (.stuckLineAssert p (List.replicate n v)) s = .next s) ∧
    (P.link ≠ .disabled → m.asserted = false →
      (run = threshold ∨ (n = 1 ∧ m.lastBit = some v ∧ threshold ≤ run)) →
      ∃ t, exec (.stuckLineAssert p (List.replicate n v)) s = .next t ∧
        (t.port p).stuck.asserted = true ∧ (t.port p).stuck.lastBit = some v ∧
        (m.blockBits < 1024 → (t.port p).stuck.blockBits = (m.blockBits + n) % 1024 ∧
          (t.port p).stuck.blockTransition = (decide (m.blockBits + n < 1024) &&
            (m.blockTransition || decide (m.lastBit = some (!v))))) ∧
        (m.blockBits < 1024 → (m.blockBits + n) % 1024 ≠ 0 → (t.port p).stuck.cleanBlocks = 0) ∧
        (t.port p).stuck.runLength = run ∧
        (t.port p).link = (if P.link = .test then .test else .faulted) ∧
        (t.port p).lastDown = (if P.link = .up then .fault else P.lastDown) ∧
        (t.port p).settings = P.settings ∧ (t.port p).quality = P.quality) ∧
    (P.link ≠ .disabled → m.asserted = false → run < threshold →
      ∃ u : StuckMonitor, exec (.stuckLineAssert p (List.replicate n v)) s =
          .next (s.updPort p fun P => { P with stuck := u }) ∧
        u.asserted = false ∧ u.runLength = run ∧ u.lastBit = some v ∧
        (m.cleanBlocks = 0 → u.cleanBlocks = 0) ∧
        (m.blockBits < 1024 → u.blockBits = (m.blockBits + n) % 1024 ∧
          u.blockTransition = (decide (m.blockBits + n < 1024) &&
            (m.blockTransition || decide (m.lastBit = some (!v))))))

/-- The end of a block while the monitor is asserted (R31, R36): a clean block counts, the target clears
the monitor and a FAULTED port with no other cause goes to ACQUIRING, and a block without a transition
sets the count to 0. A run that reaches the threshold while the monitor is asserted sets the count to 0 and
changes nothing else (R30). Any other bit within a block is counted in it, with its transition, and leaves the
clean-block count. That a run which an N lowered by PORT-SET puts above the threshold leaves the count is
the model's choice (log entry 12). -/
def Obligations.StuckBlockEnds : Prop :=
  (∀ (s : State) (p : PortId) (b : Bool) (m : StuckMonitor), (s.port p).stuck = m →
    (s.port p).link ≠ .disabled → m.asserted = true → m.lastBit = some b → m.blockBits < 1023 →
    m.runLength + 1 = ((s.port p).settings.stuckN + 1) * 256 →
    exec (.stuckLineAssert p [b]) s = .next (s.updPort p fun P =>
      { P with stuck := { m with runLength := m.runLength + 1, blockBits := m.blockBits + 1,
                                 cleanBlocks := 0 } })) ∧
  (∀ (s : State) (p : PortId) (b : Bool) (m : StuckMonitor) (run : Nat) (c : Instr), (s.port p).stuck = m →
    (s.port p).link ≠ .disabled → m.asserted = true → m.blockBits < 1023 →
    run = (if m.lastBit = some b then m.runLength + 1 else 1) →
    run ≠ ((s.port p).settings.stuckN + 1) * 256 → c ∈ [.stuckLineAssert p [b], .stuckBlockEnd p [b]] →
    exec c s = .next (s.updPort p fun P =>
      { P with stuck := { m with runLength := run, lastBit := some b, blockBits := m.blockBits + 1,
                                 blockTransition := m.blockTransition ||
                                   decide (m.lastBit = some (!b)) } })) ∧
  ∀ (s : State) (p : PortId) (b : Bool) (P : Port) (m : StuckMonitor), s.port p = P → P.stuck = m →
    P.link ≠ .disabled → m.asserted = true → m.blockBits = 1023 →
    (m.lastBit = some b → m.runLength + 1 ≠ (P.settings.stuckN + 1) * 256) →
    ∃ t, exec (.stuckBlockEnd p [b]) s = .next t ∧
      (t.port p).stuck.blockBits = 0 ∧ (t.port p).stuck.blockTransition = false ∧
      (t.port p).stuck.lastBit = some b ∧
      (t.port p).stuck.runLength = (if m.lastBit = some b then m.runLength + 1 else 1) ∧
      (m.blockTransition = true ∨ m.lastBit = some (!b) →
        (m.cleanBlocks + 1 < (P.settings.stuckK + 1) * 4 →
          (t.port p).stuck.asserted = true ∧ (t.port p).stuck.cleanBlocks = m.cleanBlocks + 1 ∧
          (t.port p).link = P.link) ∧
        ((P.settings.stuckK + 1) * 4 ≤ m.cleanBlocks + 1 →
          (t.port p).stuck.asserted = false ∧ (t.port p).stuck.cleanBlocks = 0 ∧
          (P.link = .faulted →
            (t.port p).link = (if P.quality.alarm && P.settings.qualityFault then .faulted
              else .acquiring)))) ∧
      (m.blockTransition = false → m.lastBit = some b →
        (t.port p).stuck.asserted = true ∧ (t.port p).stuck.cleanBlocks = 0 ∧ (t.port p).link = P.link)

/-- The fault causes of a port (R35), and a quality completion (R33, R36): the figure and the alarm, the link
state the causes give, and the last down cause, FAULT from UP (R25). That a figure for a DISABLED port, whose
monitor does not run, leaves the state is the model's choice (log entry 6). -/
def Obligations.QualityCompletions : Prop :=
  ∀ (s : State) (p : PortId) (fig : BitVec 6) (P : Port), s.port p = P →
    P.faultCause = (P.stuck.asserted || (P.quality.alarm && P.settings.qualityFault)) ∧
    (P.link = .disabled → exec (.qualityCompletion p fig) s = .next s) ∧
    (P.link ≠ .disabled →
      ∃ t alarm, exec (.qualityCompletion p fig) s = .next t ∧
        (t.port p).quality = { figure := fig, alarm := alarm } ∧
        (fig.toNat < P.settings.qualA → alarm = true) ∧
        (P.settings.qualA ≤ fig.toNat → fig.toNat < P.settings.qualD → alarm = P.quality.alarm) ∧
        (P.settings.qualA ≤ fig.toNat → P.settings.qualD ≤ fig.toNat → alarm = false) ∧
        (t.port p).stuck = P.stuck ∧ (t.port p).settings = P.settings ∧
        (t.port p).lastDown = (if P.link = .up ∧
          (P.stuck.asserted || (alarm && P.settings.qualityFault)) = true then .fault else P.lastDown) ∧
        (t.port p).link =
          (match P.link with
           | .test => .test
           | .disabled => .disabled
           | .faulted => if P.stuck.asserted || (alarm && P.settings.qualityFault) then .faulted
               else .acquiring
           | l => if P.stuck.asserted || (alarm && P.settings.qualityFault) then .faulted else l))

/-! ### The slot -/

/-- What a port that is not in UP sends in a slot, and nothing else changes (R20, R37, R184). In TEST the first
slot sets the pattern unit running (R183); that it is the port's own next SLOT is read by inference (log entry
12). A USER generator sends its pattern in order, from one slot into the next, and a shift-register generator the
XOR of two of its own earlier bits, each inverted where the setting says so (R184); each slot leaves the
generator where the next one goes on, and the checker as it stood. -/
def Obligations.SlotsOutsideUp : Prop :=
  ∀ (s : State) (p : PortId) (P : Port) (fill : Bool → Sent), s.port p = P →
    (∀ a, fill a = .cell (egressCell fillFields
      { aligned := a, plane := s.plane, mcHold := s.mcHold, grants := [], refusal := none, credits := 0 }
      zeroPayload)) →
    (P.link = .disabled → exec (.slot p) s = .next (s.updPort p fun P => { P with sent := .quiet })) ∧
    (P.link = .acquiring → exec (.slot p) s = .next (s.updPort p fun P => { P with sent := fill false })) ∧
    (P.link = .waiting → exec (.slot p) s = .next (s.updPort p fun P => { P with sent := fill true })) ∧
    (P.link = .faulted → exec (.slot p) s = .next (s.updPort p fun Q =>
      { Q with sent := if P.settings.squelch then .quiet else fill false })) ∧
    (P.link = .test → P.test.settings.genPattern = .off →
      exec (.slot p) s = .next (s.updPort p fun P =>
        { P with sent := .quiet, test := { P.test with running := true } })) ∧
    (P.link = .test → P.test.settings.genPattern ≠ .off →
      ∃ bits reg, exec (.slot p) s = .next (s.updPort p fun Q => { Q with
          sent := .pattern bits,
          test := { P.test with running := true, genReg := reg, genPos := (P.test.genPos + 1152) % 64 } }) ∧
        bits.length = 1152 ∧
        (P.test.settings.genPattern = .user → P.test.genPos < 64 →
          ∀ i, i < 1152 → bits[i]? = some
            (xor (P.test.settings.user.getLsbD ((P.test.genPos + i) % 64)) P.test.settings.genInvert)) ∧
        ∀ back₁ back₂, (P.test.settings.genPattern, back₁, back₂) ∈
            [(Pattern.p7, 6, 7), (.p23, 18, 23), (.p31, 28, 31)] →
          ∀ raw : Nat → Bool, (∀ i, i < 1152 →
              bits[i]? = some (xor (raw (i + 31)) P.test.settings.genInvert)) →
            (∀ i, i < 31 → raw i = P.test.genReg.getLsbD (30 - i)) →
            (∀ i, i < 1152 → raw (i + 31) = xor (raw (i + 31 - back₁)) (raw (i + 31 - back₂))) ∧
            ∀ i, i < 31 → reg.getLsbD i = raw (1152 + 30 - i))

/-- A slot of a port in UP that sends a FILL cell: an Idle slot, or a Send slot where every contender is empty or
held, which changes no pointer or budget (R113, R118). The header carries up to three grants, a refusal and up to
three credits, which leave, and the deadlines of those grants start (R12, R70, R78, R121, R155). Deadlines are
times of the model's clock (log entry 7). `pat` is the pattern in effect: the stored setting where the slot
before ended with a wrap (R114); that the wrap of R113 acts at the end of its slot is read by inference (log
entry 17). GrantLaw, an obligation of its own, says that a grant that leaves has an open record, so that no move
is drained by it. -/
def Obligations.IdleSlotCarriesTheHeader : Prop :=
  ∀ (s : State) (p : PortId) (P : Port) (pat : List Bool), s.port p = P → P.link = .up → s.GrantLaw →
    pat = (if P.round.wraps then P.settings.cadence else P.round.pattern) →
    (pat[P.round.position]? = some false ∨
      (pat[P.round.position]? = some true ∧ (P.holds.c0 = false → P.elements = []) ∧
        ∀ (d : Did) (c : Cls), s.mapsTo d p = true → P.holds.get c = false → s.queue d c = [])) →
    ∃ t, exec (.slot p) s = .next t ∧
      (t.port p).sent = .cell (egressCell fillFields
        { aligned := true, plane := s.plane, mcHold := s.mcHold, grants := P.grantOutbox.take 3,
          refusal := P.refusalOutbox.head?, credits := BitVec.ofNat 2 (min P.owed 3) } zeroPayload) ∧
      (t.port p).grantOutbox = P.grantOutbox.drop 3 ∧ (t.port p).refusalOutbox = P.refusalOutbox.drop 1 ∧
      (t.port p).owed = P.owed - min P.owed 3 ∧ (t.port p).held = P.held ∧
      (t.port p).round =
        (if P.round.position + 1 ≥ pat.length
         then { P.round with pattern := pat, position := 0, wraps := true }
         else { P.round with pattern := pat, position := P.round.position + 1, wraps := false }) ∧
      (∀ (d : Did) (c : GClass), t.grant p d c =
        (s.grant p d c).map fun g =>
          if (P.grantOutbox.take 3).any (fun e => decide (e.did = d ∧ e.cls = c))
          then { g with deadline := some (s.now + s.lifetime) } else g) ∧
      (t.port p).elements = P.elements ∧ (t.port p).counters = P.counters ∧ t.dids = s.dids ∧
      t.elementUse = s.elementUse ∧ t.markerUse = s.markerUse ∧ t.mcCells = s.mcCells ∧
      ∀ q : PortId, q ≠ p → t.port q = s.port q

/-- A Send slot of a port in UP that takes the oldest element cell: no DID of the port has a class-0 entry and
class 0 is not held (R110, R113, R115, R119, R157). A response the command unit holds is offered again at the
fall of the allowance use, in the same event (R157, R159), so before a BUSY of a full queue, an order the manual
leaves open (the model's choice, log entry 8). `pat` is the pattern in effect: the stored setting where the slot
before ended with a wrap (R114); that the wrap of R113 acts at the end of its slot is read by inference (log
entry 17). GrantLaw, an obligation of its own, says that a grant that leaves in the header has an open record, so
that no move is drained by it. -/
def Obligations.ElementCellDeparts : Prop :=
  ∀ (s : State) (p : PortId) (P : Port) (pat : List Bool) (f : Frame) (fs : List Frame),
    s.port p = P → P.link = .up → s.GrantLaw →
    pat = (if P.round.wraps then P.settings.cadence else P.round.pattern) →
    pat[P.round.position]? = some true → P.holds.c0 = false → P.elements = f :: fs →
    (∀ d : Did, s.mapsTo d p = true → s.queue d .c0 = []) →
    ∃ t, exec (.slot p) s = .next t ∧
      (t.port p).sent = .cell (egressCell elementFields
        { aligned := true, plane := s.plane, mcHold := s.mcHold, grants := P.grantOutbox.take 3,
          refusal := P.refusalOutbox.head?, credits := BitVec.ofNat 2 (min P.owed 3) } (frameBytes f)) ∧
      (t.port p).counters = { P.counters with cellsOut := countUp P.counters.cellsOut } ∧
      (t.port p).round =
        (if P.round.position + 1 ≥ pat.length
         then { P.round with pattern := pat, position := 0, wraps := true, c0Pointer := 0 }
         else { P.round with pattern := pat, position := P.round.position + 1, wraps := false, c0Pointer := 0 }) ∧
      t.dids = s.dids ∧
      (s.cmdUnit = .ready → (t.port p).elements = fs ∧ t.elementUse = s.elementUse - 1 ∧
        t.cmdUnit = .ready ∧ ∀ q : PortId, q ≠ p → t.port q = s.port q) ∧
      ∀ (q : PortId) (g : Frame), s.cmdUnit = .holding q g → s.isUp q = true → s.elementUse ≤ 32 →
        t.cmdUnit = .ready ∧ t.elementUse = s.elementUse - 1 + 1 ∧
        ∀ r : PortId, (t.port r).elements =
          (if r = p then fs else (s.port r).elements) ++ (if r = q then [g] else [])

/-- The selection of a Send slot. It takes an entry of a queue that contends at the port, or the element list, of
a class that is not held, and a granted class only when class 0 yields nothing (R111, R115, R118). Class 0: the
first of 33 contenders from the class-0 pointer upward, the pointer set behind it (R115). A granted class: the
first eligible one with a budget, which falls by 1, or where none has one the first eligible after a refill of
all three budgets (R116); in it the first DID from the pointer of the class upward, the pointer set behind it
(R117). -/
def Obligations.SelectionRespectsHolds : Prop :=
  ∀ (s : State) (p : PortId) (R r : Round), (s.port p).round = R →
    (∀ (d : Did) (c : Cls), s.select p = (some (.queue d c), r) →
      (s.port p).holds.get c = false ∧ s.mapsTo d p = true ∧ s.queue d c ≠ [] ∧
      (c ≠ .c0 → (s.port p).holds.c0 = true ∨
        ((s.port p).elements = [] ∧ ∀ e : Did, s.mapsTo e p = true → s.queue e .c0 = []))) ∧
    (s.select p = (some .element, r) →
      (s.port p).holds.c0 = false ∧ (s.port p).elements ≠ []) ∧
    (s.select p = (none, r) → r = R ∧
      ∀ (d : Did) (c : Cls), s.mapsTo d p = true → (s.port p).holds.get c = false → s.queue d c = []) ∧
    (∀ i : Nat, i ≤ 32 →
      (∀ d : Did, d.val = i → s.select p = (some (.queue d .c0), r)) →
      (i = 32 → s.select p = (some .element, r)) →
      r = { R with c0Pointer := if i = 32 then 0 else i + 1 } ∧
      ∃ k, k < 33 ∧ i = (R.c0Pointer + k) % 33 ∧ ∀ j, j < k →
        ((R.c0Pointer + j) % 33 = 32 → (s.port p).elements = []) ∧
        ∀ e : Did, e.val = (R.c0Pointer + j) % 33 → s.mapsTo e p = true → s.queue e .c0 = []) ∧
    ∀ (d : Did) (c : GClass) (eligible : GClass → Prop) (full : PerG Nat),
      s.select p = (some (.queue d c.cls), r) →
      (∀ g, eligible g ↔ (s.port p).holds.get g.cls = false ∧
        ∃ e : Did, s.mapsTo e p = true ∧ s.queue e g.cls ≠ []) →
      full = ⟨s.classes.c1.weight, s.classes.c2.weight, s.classes.c3.weight⟩ →
      eligible c ∧
      ((∃ g, eligible g ∧ 0 < R.budget.get g) →
        0 < R.budget.get c ∧ r.budget = R.budget.set c (R.budget.get c - 1) ∧
        ∀ g : GClass, g.cls.code < c.cls.code → eligible g → R.budget.get g = 0) ∧
      ((∀ g, eligible g → R.budget.get g = 0) →
        r.budget = full.set c (full.get c - 1) ∧ ∀ g : GClass, g.cls.code < c.cls.code → ¬ eligible g) ∧
      r.didPointer = R.didPointer.set c ((d.val + 1) % 32) ∧ r.c0Pointer = R.c0Pointer ∧
      r.pattern = R.pattern ∧ r.position = R.position ∧ r.wraps = R.wraps ∧
      ∃ k, k < 32 ∧ d.val = (R.didPointer.get c + k) % 32 ∧ ∀ j, j < k →
        ∀ e : Did, e.val = (R.didPointer.get c + j) % 32 → s.mapsTo e p = true → s.queue e c.cls = []

/-- The departure of the head of a queue, by kind (R11, R57, R119, R136, R137): it leaves its queue with the cell
fields of its kind, its store and counts are released, and a cell is counted out. The store of a MARK serves the
owed-marker list in the same event (R47, R102). The slot that selects the entry sends it in the header of R121,
on the state the departure leaves, a cutover it brings included (section 6.3; read by inference, log entry 4):
`w` is that state, and `v` the state before the end of the assembly. `pat` is the pattern in effect: the stored
setting where the slot before ended with a wrap (R114); that the wrap of R113 acts at the end of its slot is read
by inference (log entry 17). -/
def Obligations.DeparturesRelease : Prop :=
  (∀ (s t : State) (p : PortId) (d : Did) (c : Cls) (e : QEntry) (rest : List QEntry)
    (sent : CellFields × Payload),
    s.queue d c = e :: rest → s.depart p (.queue d c) = (sent, t) →
    (t.port p).counters = { (s.port p).counters with cellsOut := countUp (s.port p).counters.cellsOut } ∧
    ((∀ src mc, e ≠ .mark src mc) ∨ s.owedMarkers = [] → t.queue d c = rest ∧
      t.owedMarkers = s.owedMarkers ∧ ∀ d' c', (d', c') ≠ (d, c) → t.queue d' c' = s.queue d' c') ∧
    match e with
    | .cell x =>
      t.markerUse = s.markerUse ∧ t.mcCells = s.mcCells ∧
      sent = ({ kind := if c = .c0 then 3 else 1, cls := c, first := x.first, last := x.last, did := d,
                count := x.count, poison := x.poison, source := x.src, elementOrigin := false,
                mc := false }, x.payload) ∧
      (∀ g : GClass, c = g.cls →
        t.usage d g = { occupied := (s.usage d g).occupied - 1, reserved := (s.usage d g).reserved } ∧
        (t.port x.src).held = (s.port x.src).held ∧ (t.port x.src).owed = (s.port x.src).owed) ∧
      (c = .c0 → 1 ≤ (s.port x.src).held →
        (t.port x.src).held = (s.port x.src).held - 1 ∧
        (t.port x.src).owed =
          (if (s.port x.src).link = .up then (s.port x.src).owed + 1 else (s.port x.src).owed))
    | .mref n =>
      t.markerUse = s.markerUse ∧
      (∀ g : GClass, c = g.cls → (t.did d).mcRefs.get g = (s.did d).mcRefs.get g - 1) ∧
      ∀ m : McCell, s.mcCell n = some m →
        sent = ({ kind := 2, cls := c, first := m.cell.first, last := m.cell.last, did := d,
                  count := m.cell.count, poison := m.cell.poison, source := m.cell.src,
                  elementOrigin := false, mc := false }, m.cell.payload) ∧
        (m.fanOut ≤ 1 → t.mcCell n = none ∧ t.poolUse = s.poolUse - 1 ∧
          t.mcHold = (if s.poolSize - t.poolUse ≤ s.holdOn then true
            else if max s.holdOff (s.holdOn + 1) ≤ s.poolSize - t.poolUse then false else s.mcHold)) ∧
        (1 < m.fanOut → t.mcCell n = some { m with fanOut := m.fanOut - 1 } ∧ t.poolUse = s.poolUse ∧
          t.mcHold = s.mcHold)
    | .mark src mc =>
      sent = ({ kind := 4, cls := c, first := false, last := false, did := d, count := 127,
                poison := false, source := src, elementOrigin := false, mc := mc }, zeroPayload) ∧
      t.mcCells = s.mcCells ∧
      (s.owedMarkers = [] → t.markerUse = s.markerUse - 1) ∧
      ∀ (gone more : List MarkerKey) (k : MarkerKey), s.owedMarkers = gone ++ k :: more →
        (∀ x ∈ gone, s.reachable x.did = false) → s.reachable k.did = true →
        1 ≤ s.markerUse → s.markerUse ≤ 64 →
        t.markerUse = s.markerUse ∧ t.owedMarkers = more ∧
        ∀ d' c', t.queue d' c' = (if (d', c') = (d, c) then rest else s.queue d' c') ++
          (if (d', c') = (k.did, k.cls) then [.mark k.src k.mc] else [])) ∧
  ∀ (s s' x u w : State) (p : PortId) (d : Did) (c : Cls) (pat : List Bool) (r : Round)
    (sent : CellFields × Payload), (s.port p).link = .up →
    pat = (if (s.port p).round.wraps then (s.port p).settings.cadence else (s.port p).round.pattern) →
    pat[(s.port p).round.position]? = some true →
    s' = s.updPort p (fun P => { P with round :=
      if P.round.position + 1 ≥ pat.length
      then { P.round with pattern := pat, position := 0, wraps := true }
      else { P.round with pattern := pat, position := P.round.position + 1, wraps := false } }) →
    s'.select p = (some (.queue d c), r) →
    s'.updPort p (fun P => { P with round := r }) = x → x.depart p (.queue d c) = (sent, u) →
    w = eventEnd x u →
    ∃ v, exec (.slot p) s = .next (eventEnd w v) ∧
      (v.port p).sent = .cell (egressCell sent.1
        { aligned := true, plane := s.plane, mcHold := w.mcHold, grants := (s.port p).grantOutbox.take 3,
          refusal := (w.port p).refusalOutbox.head?,
          credits := BitVec.ofNat 2 (min (w.port p).owed 3) } sent.2) ∧
      (v.port p).round = r ∧ (v.port p).owed = (w.port p).owed - min (w.port p).owed 3 ∧
      (v.port p).grantOutbox = (s.port p).grantOutbox.drop 3 ∧
      (v.port p).refusalOutbox = (w.port p).refusalOutbox.drop 1 ∧ v.dids = w.dids ∧
      (∀ (e : Did) (g : GClass), v.grant p e g = (s.grant p e g).map fun y =>
        if ((s.port p).grantOutbox.take 3).any (fun x => decide (x.did = e ∧ x.cls = g))
        then { y with deadline := some (s.now + s.lifetime) } else y) ∧
      ∀ q : PortId, q ≠ p → v.port q = w.port q

/-! ### Admission and arrival -/

/-- R51: the allowance from free shared space, exponent, usage and floor. The values it is computed from: the
usage, which is the sum of the occupied and reserved parts, the shared pool, the floor use and the excess, which
make up the usage, and FreeShared. -/
def Obligations.AllowanceFollowsItsFormula : Prop :=
  ∀ (s : State) (d : Did) (c : GClass) (free used floor target : Nat) (e : Int),
    free = s.freeShared →
    used = (s.usage d .c1).occupied + (s.usage d .c1).reserved + (s.usage d .c2).occupied +
      (s.usage d .c2).reserved + (s.usage d .c3).occupied + (s.usage d .c3).reserved → floor = (s.did d).floor →
    e = (s.classes.get c).exponent →
    (0 ≤ e → target = free * 2 ^ e.toNat) → (e < 0 → target = free / 2 ^ (-e).toNat) →
    (s.allowance d c : Int) =
      max 0 ((floor : Int) - used) +
        min (free : Int) (max 0 ((target : Int) - max 0 ((used : Int) - floor))) ∧
    s.allowance d c ≤ floor + free ∧ (free = 0 → s.allowance d c = floor - used) ∧
    (s.did d).floorUse = min used floor ∧ (s.did d).floorUse + s.excess d = used ∧
    (s.excess d : Int) = max 0 ((used : Int) - floor) ∧
    s.sharedPool = 16384 - 224 - 64 - (s.poolSize : Int) -
      ((allDids.map fun e => (s.did e).floor).sum : Int) ∧
    (free : Int) = max 0 (s.sharedPool - ((allDids.map s.excess).sum : Int))

/-- A cell of an unaccepted kind and class is counted BAD_KIND and touches no train, credit, queue or
store; its header content is still taken, hold flags and bids (R1, R5). `u` is the state the flags and the bids
leave, each bid an event of its own (read by inference, log entry 4), and `t` the state before the end of the
cell's event. -/
def Obligations.BadKindTouchesNothing : Prop :=
  ∀ (s u : State) (p : PortId) (c : RawCell) (h : IngressHeader), IngressHeader.read c.header = h →
    headerPasses c.header = true → (s.port p).link = .up → h.aligned = true → h.classify = .badKind →
    u = h.bids.foldl (fun x b => eventEnd x (x.takeBid p b))
      (s.updPort p fun P => { P with partnerAligned := true, holds := h.holds, failCount := 0 }) →
    ∃ t, exec (.ingressCell p c) s = .next (eventEnd u t) ∧
      (t.port p).counters.badKind = countUp (s.port p).counters.badKind ∧ (t.port p).holds = h.holds ∧
      (t.port p).link = .up ∧ t.cmdQueue = s.cmdQueue ∧ t.markerUse = s.markerUse ∧
      t.owedMarkers = s.owedMarkers ∧ t.mcCells = s.mcCells ∧ t.poolUse = s.poolUse ∧ t.dids = u.dids ∧
      (∀ (d : Did) (c : Cls), t.queue d c = s.queue d c) ∧
      (∀ (d : Did) (c : GClass), t.bids d c = u.bids d c ∧ t.usage d c = u.usage d c ∧
        (t.usage d c).occupied = (s.usage d c).occupied) ∧
      ∀ q : PortId, (t.port q).held = (s.port q).held ∧ (t.port q).owed = (s.port q).owed ∧
        (t.port q).trains = (u.port q).trains ∧ (t.port q).mcTrains = (u.port q).mcTrains ∧
        (t.port q).grants = (u.port q).grants ∧ (t.port q).grantOutbox = (u.port q).grantOutbox ∧
        (t.port q).refusalOutbox = (u.port q).refusalOutbox

/-- A class-0 cell to a DID whose port is UP (R92, R95, R96, R99): under a credit a candidate is admitted,
and without one it is refused for C0_OVERRUN, and a refused LAST of a train that had begun becomes a marker (R100).
`u` is the state the flags and the bids of the header leave, on which the cell is judged, each bid an event of its
own (read by inference, log entry 4), and `t` the state before the end of the cell's event. -/
def Obligations.ClassZeroByCredit : Prop :=
  ∀ (s u : State) (p q : PortId) (c : RawCell) (h : IngressHeader), IngressHeader.read c.header = h →
    headerPasses c.header = true → (s.port p).link = .up → h.aligned = true → h.classify = .class0 →
    (payloadPasses c = true ∨ (s.port p).settings.payloadMode = .forward) →
    u = h.bids.foldl (fun x b => eventEnd x (x.takeBid p b))
      (s.updPort p fun P => { P with partnerAligned := true, holds := h.holds, failCount := 0 }) →
    u.portOf h.did = some q → u.isUp q = true → (h.first = true ∨ u.train p h.did .c0 = .open) →
    ((s.port p).held + (s.port p).owed < 8 →
      ∃ t, exec (.ingressCell p c) s = .next (eventEnd u t) ∧
        (t.port p).held = (s.port p).held + 1 ∧ (t.port p).owed = (s.port p).owed ∧
        (t.port p).counters.cellsIn = countUp (s.port p).counters.cellsIn ∧
        t.queue h.did .c0 = s.queue h.did .c0 ++
          [.cell { src := p, first := h.first, last := h.last, count := h.count,
                   poison := !payloadPasses c, payload := c.payload }] ∧
        t.train p h.did .c0 = (if h.last then .idle else .open) ∧
        t.owedMarkers = s.owedMarkers.filter (fun k => !(h.first && decide (k = ⟨p, h.did, .c0, false⟩))) ∧
        (∀ d' c', (d', c') ≠ (h.did, Cls.c0) → t.queue d' c' = s.queue d' c') ∧
        t.markerUse = s.markerUse ∧ t.mcCells = s.mcCells ∧ t.cmdQueue = s.cmdQueue) ∧
    (8 ≤ (s.port p).held + (s.port p).owed →
      ∃ t, exec (.ingressCell p c) s = .next (eventEnd u t) ∧
        (t.port p).counters.c0Overrun = countUp (s.port p).counters.c0Overrun ∧
        (t.port p).held = (s.port p).held ∧ (t.port p).owed = (s.port p).owed ∧
        t.train p h.did .c0 = (if h.last then .idle else .broken) ∧
        u.Marked t (if h.last && !(h.first && decide (u.train p h.did .c0 = .idle))
          then [⟨p, h.did, .c0, false⟩] else []) ∧
        t.mcCells = s.mcCells ∧ t.cmdQueue = s.cmdQueue)

/-- A command cell taken from a port in UP (R6, R155, R158): counted and its credit returned, dropped
without a credit, answered BUSY or lost at a full queue, or appended to the queue. -/
def Obligations.CommandCellsEnter : Prop :=
  ∀ (s : State) (p : PortId) (h : IngressHeader) (payload : Payload), s.isUp p = true →
    ((s.port p).held + (s.port p).owed < 8 →
      s.commandArrival p h payload false = s.updPort p fun P =>
        { P with owed := P.owed + 1,
                 counters := { P.counters with payloadErr := countUp P.counters.payloadErr } }) ∧
    (8 ≤ (s.port p).held + (s.port p).owed →
      s.commandArrival p h payload false = (s.updPort p fun P =>
        { P with counters := { P.counters with payloadErr := countUp P.counters.payloadErr } }) ∧
      s.commandArrival p h payload true = s.updPort p fun P =>
        { P with counters := { P.counters with c0Overrun := countUp P.counters.c0Overrun } }) ∧
    ((s.port p).held + (s.port p).owed < 8 → s.cmdQueue.length < 16 →
      s.commandArrival p h payload true =
        { s.updPort p (fun P => { P with held := P.held + 1 }) with
          cmdQueue := s.cmdQueue ++
            [{ src := p, first := h.first, last := h.last, frame := payloadFrame payload }] }) ∧
    ((s.port p).held + (s.port p).owed < 8 → 16 ≤ s.cmdQueue.length → s.elementUse < 32 →
      s.commandArrival p h payload true =
        { s.updPort p (fun P => { P with owed := P.owed + 1, elements := P.elements ++
            [responseFrame (payloadFrame payload) .busy []] }) with elementUse := s.elementUse + 1 }) ∧
    ((s.port p).held + (s.port p).owed < 8 → 16 ≤ s.cmdQueue.length → 32 ≤ s.elementUse →
      s.commandArrival p h payload true =
        { s.updPort p (fun P => { P with owed := P.owed + 1 }) with cmdLost := countUp s.cmdLost })

/-- A valid bid slot judged (R65 to R68): BAD_BID, a refusal, an entry with its record cut, or a withdrawal, each
with the bid queue it leaves, in order, and with the unsent grant of the record lowered or withdrawn (R79). A
refusal is queued, suppressed as a duplicate, or lost and counted (R69). `bidOf` is the entry of a source in a
queue of one entry for each (R64). -/
def Obligations.BidsAreJudged : Prop :=
  (∀ (p : PortId) (q : List BidEntry), (q.map fun e => e.src).Nodup →
    (bidOf p q = none ↔ ∀ e ∈ q, e.src ≠ p) ∧ ∀ e, bidOf p q = some e ↔ e ∈ q ∧ e.src = p) ∧
  (remainingOf none = 0 ∧ ∀ g : GrantRec, remainingOf (some g) = g.remaining) ∧
  (∀ (s : State) (p : PortId) (r : RefusalEntry),
    (s.isUp p = false → s.refuse p r = s) ∧
    (r ∈ (s.port p).refusalOutbox → s.refuse p r = s) ∧
    (s.isUp p = true → r ∉ (s.port p).refusalOutbox → 4 ≤ (s.port p).refusalOutbox.length →
      s.refuse p r = s.updPort p fun P =>
        { P with counters := { P.counters with refusalLost := countUp P.counters.refusalLost } }) ∧
    (s.isUp p = true → r ∉ (s.port p).refusalOutbox → (s.port p).refusalOutbox.length < 4 →
      s.refuse p r = s.updPort p fun P => { P with refusalOutbox := P.refusalOutbox ++ [r] })) ∧
  ∀ (s : State) (p : PortId) (b : BidSlot),
    (b.valid = false → s.takeBid p b = s) ∧
    (b.valid = true → b.cls = .c0 → s.takeBid p b = s.updPort p fun P =>
      { P with counters := { P.counters with badBid := countUp P.counters.badBid } }) ∧
    ∀ c : GClass, b.valid = true → b.cls = c.cls →
      (b.count ≠ 0 → s.portOf b.did = none → s.takeBid p b = s.refuse p ⟨c, b.did, .unmapped⟩) ∧
      (∀ q, b.count ≠ 0 → s.portOf b.did = some q → s.isUp q = false →
        s.takeBid p b = s.refuse p ⟨c, b.did, .destDown⟩) ∧
      (∀ q, b.count ≠ 0 → s.portOf b.did = some q → s.isUp q = true →
        (s.takeBid p b).bids b.did c =
          (if bidOf p (s.bids b.did c) = none then s.bids b.did c ++ [⟨p, b.count⟩]
           else (s.bids b.did c).map fun e => if e.src = p then ⟨p, b.count⟩ else e) ∧
        (∀ d' c', (d', c') ≠ (b.did, c) → (s.takeBid p b).bids d' c' = s.bids d' c') ∧
        (s.takeBid p b).grant p b.did c =
          (s.grant p b.did c).map (fun g => { g with remaining := min g.remaining b.count }) ∧
        ((s.takeBid p b).usage b.did c).reserved =
          (s.usage b.did c).reserved - (remainingOf (s.grant p b.did c) - b.count) ∧
        ((s.takeBid p b).port p).grantOutbox =
          (if b.count < remainingOf (s.grant p b.did c)
           then (s.port p).grantOutbox.map fun x =>
             if x.did = b.did ∧ x.cls = c then { x with quota := min x.quota b.count } else x
           else (s.port p).grantOutbox)) ∧
      (b.count = 0 → bidOf p (s.bids b.did c) = none → s.takeBid p b = s) ∧
      (b.count = 0 → bidOf p (s.bids b.did c) ≠ none →
        (s.takeBid p b).bids b.did c = (s.bids b.did c).filter (fun e => !decide (e.src = p)) ∧
        (∀ d' c', (d', c') ≠ (b.did, c) → (s.takeBid p b).bids d' c' = s.bids d' c') ∧
        (s.takeBid p b).grant p b.did c = none ∧
        ((s.takeBid p b).usage b.did c).reserved =
          (s.usage b.did c).reserved - remainingOf (s.grant p b.did c) ∧
        ((s.takeBid p b).port p).grantOutbox =
          (if s.grant p b.did c = none then (s.port p).grantOutbox
           else (s.port p).grantOutbox.filter fun x => !decide (x.did = b.did ∧ x.cls = c)))

/-- A DATA cell that is a FIRST or finds its train OPEN, and that the payload check lets pass, is offered to its
account (R92, R95). The accounting of such a candidate (R55, R56, R79, R80, R81, R98): under an open record, with
the unsent grant of the record lowered or withdrawn, as a late cell against the allowance, or refused for LATE.
The backlog of the source falls by one where the cell is admitted, and a FIRST admitted cancels its owed marker
(R96). A LAST refused for LATE becomes a marker where the train had begun (R95, R100). -/
def Obligations.DataIsAccounted : Prop :=
  (∀ (s : State) (p : PortId) (d : Did) (c : GClass) (x : StoredCell),
    (x.first = true ∨ s.train p d c.cls = .open) → s.trainStep p d c.cls x false = s.offerData p d c x) ∧
  ∀ (s t : State) (p : PortId) (d : Did) (c : GClass) (x : StoredCell), s.offerData p d c x = t →
    ((s.bids d c).map fun e => e.src).Nodup →
    (∀ g, s.grant p d c = some g → 1 ≤ (s.usage d c).reserved →
      t.usage d c = { occupied := (s.usage d c).occupied + 1, reserved := (s.usage d c).reserved - 1 } ∧
      t.grant p d c = (if g.remaining ≤ 1 then none else some { g with remaining := g.remaining - 1 }) ∧
      t.queue d c.cls = s.queue d c.cls ++ [.cell x] ∧
      t.train p d c.cls = (if x.last then .idle else .open) ∧ (t.port p).counters = (s.port p).counters ∧
      (t.port p).grantOutbox =
        (if g.remaining ≤ 1
         then (s.port p).grantOutbox.filter fun y => !decide (y.did = d ∧ y.cls = c)
         else (s.port p).grantOutbox.map fun y =>
           if y.did = d ∧ y.cls = c then { y with quota := min y.quota (g.remaining - 1) } else y)) ∧
    (s.grant p d c = none → 1 ≤ s.allowance d c →
      t.usage d c = { occupied := (s.usage d c).occupied + 1, reserved := (s.usage d c).reserved } ∧
      t.grant p d c = none ∧ t.queue d c.cls = s.queue d c.cls ++ [.cell x] ∧
      (t.port p).grantOutbox = (s.port p).grantOutbox ∧
      t.train p d c.cls = (if x.last then .idle else .open) ∧ (t.port p).counters = (s.port p).counters) ∧
    (s.grant p d c = none → s.allowance d c = 0 →
      t.usage d c = s.usage d c ∧ t.bids d c = s.bids d c ∧
      t.train p d c.cls = (if x.last then
        (if x.first && decide (s.train p d c.cls = .idle) then s.train p d c.cls else .idle) else .broken) ∧
      (t.port p).counters = { (s.port p).counters with late := countUp (s.port p).counters.late } ∧
      s.Marked t (if x.last && !(x.first && decide (s.train p d c.cls = .idle))
        then [⟨p, d, c.cls, false⟩] else [])) ∧
    (s.grant p d c ≠ none ∨ 1 ≤ s.allowance d c →
      t.markerUse = s.markerUse ∧
      t.owedMarkers = s.owedMarkers.filter (fun k => !(x.first && decide (k = ⟨p, d, c.cls, false⟩))) ∧
      bidOf p (t.bids d c) = (match bidOf p (s.bids d c) with
        | none => none
        | some e => if e.backlog ≤ 1 then none else some ⟨p, e.backlog - 1⟩) ∧
      ∀ r, r ≠ p → bidOf r (t.bids d c) = bidOf r (s.bids d c)) ∧
    ∀ d' c', (d', c') ≠ (d, c.cls) → t.queue d' c' = s.queue d' c'

/-- The train step of a cell that is not a candidate, and of a candidate refused at the payload check
(R95, R97, R100): its counter, its transition, and the marker a LAST becomes where the train had begun. It
changes no usage and no record, and a class-0 cell has its credit returned (R99). -/
def Obligations.TrainsFollowTheirTable : Prop :=
  ∀ (s t : State) (p : PortId) (d : Did) (c : Cls) (x : StoredCell) (refused marker : Bool),
    s.trainStep p d c x refused = t →
    (x.first = false ∧ s.train p d c ≠ .open ∨ refused = true) →
    (marker = true ↔ x.last = true ∧ s.train p d c ≠ .idle) →
    (∀ (d' : Did) (g : GClass), t.usage d' g = s.usage d' g ∧ t.grant p d' g = s.grant p d' g ∧
      t.bids d' g = s.bids d' g) ∧
    (t.port p).held = (s.port p).held ∧
    (t.port p).owed = (if c = .c0 ∧ (s.port p).held + (s.port p).owed < 8 ∧ s.isUp p = true
      then (s.port p).owed + 1 else (s.port p).owed) ∧
    (∀ d' c', t.queue d' c' = s.queue d' c' ++
      (if marker = true ∧ s.markerUse < 64 ∧ (d', c') = (d, c) then [.mark p false] else [])) ∧
    t.markerUse = (if marker = true ∧ s.markerUse < 64 then s.markerUse + 1 else s.markerUse) ∧
    t.owedMarkers = (if marker = true ∧ 64 ≤ s.markerUse ∧ ⟨p, d, c, false⟩ ∉ s.owedMarkers
      then s.owedMarkers ++ [⟨p, d, c, false⟩] else s.owedMarkers) ∧
    (x.first = false → s.train p d c = .idle →
      t.train p d c = .idle ∧
      (t.port p).counters = (if refused
        then { (s.port p).counters with payloadErr := countUp (s.port p).counters.payloadErr }
        else { (s.port p).counters with orphan := countUp (s.port p).counters.orphan })) ∧
    (x.first = false → s.train p d c = .broken →
      t.train p d c = (if x.last then .idle else .broken) ∧
      (t.port p).counters = (if refused
        then { (s.port p).counters with payloadErr := countUp (s.port p).counters.payloadErr }
        else { (s.port p).counters with broken := countUp (s.port p).counters.broken })) ∧
    (x.first = true ∨ s.train p d c = .open →
      t.train p d c = (if x.last then .idle else .broken) ∧
      (t.port p).counters =
        { (s.port p).counters with payloadErr := countUp (s.port p).counters.payloadErr })

/-- What R1 accepts a cell as, by kind, class and ELEMENT flag, and the path of a cell from a port in UP whose
header passes its check (R1, R5, R92, R93, R99, R129, R158, R179): the flags are taken, then the bids one by one,
a DATA, MDATA or CTRL cell is counted in, and then the cell goes to the train step of its DID, to the multicast
unit or to the command queue, is dropped for a DID that is UNMAPPED or whose port is not UP, a class-0 cell with
its credit returned, or is counted BAD_KIND. `u` is the state the bids leave, each an event of its own, on which
the cell is judged (read by inference, log entry 4), and `v` the state before the end of the cell's event; what
each unit does is said by the statements on it. That cells in counts a cell that is BAD_KIND too is read by
inference (log entry 16). -/
def Obligations.ArrivalsTakeTheirPath : Prop :=
  (∀ h : IngressHeader,
    (h.classify = .fill ↔ h.kind = .fill) ∧
    (∀ g : GClass, (h.classify = .unicast g ↔ h.kind = .data ∧ h.cls = g.cls ∧ h.element = false) ∧
      (h.classify = .multicast g ↔ h.kind = .mdata ∧ h.cls = g.cls ∧ h.element = false)) ∧
    (h.classify = .class0 ↔ h.kind = .ctrl ∧ h.cls = .c0 ∧ h.element = false) ∧
    (h.classify = .command ↔ h.kind = .ctrl ∧ h.cls = .c0 ∧ h.element = true) ∧
    (h.classify = .badKind ↔ ((h.kind = .data ∨ h.kind = .mdata) ∧ (h.cls = .c0 ∨ h.element = true)) ∨
      (h.kind = .ctrl ∧ h.cls ≠ .c0) ∨ h.kind = .mark ∨ h.kind = .reserved)) ∧
  ∀ (s u w : State) (p : PortId) (c : RawCell) (h : IngressHeader) (good : Bool) (x : StoredCell),
    IngressHeader.read c.header = h → payloadPasses c = good → headerPasses c.header = true →
    (s.port p).link = .up → h.aligned = true →
    u = h.bids.foldl (fun y b => eventEnd y (y.takeBid p b))
      (s.updPort p fun P => { P with partnerAligned := true, holds := h.holds, failCount := 0 }) →
    w = u.updPort p (fun P =>
      { P with counters := { P.counters with cellsIn := countUp P.counters.cellsIn } }) →
    x = { src := p, first := h.first, last := h.last, count := h.count, poison := !good,
          payload := c.payload } →
    ∃ v, exec (.ingressCell p c) s = .next (eventEnd u v) ∧
      (h.kind = .fill → v = u) ∧
      (h.classify = .badKind →
        v = (if h.kind = .data ∨ h.kind = .mdata ∨ h.kind = .ctrl then w else u).updPort p fun P =>
          { P with counters := { P.counters with badKind := countUp P.counters.badKind } }) ∧
      (∀ k : Cls, (∃ g : GClass, h.classify = .unicast g ∧ k = g.cls) ∨ (h.classify = .class0 ∧ k = .c0) →
        (∀ q, u.portOf h.did = some q → u.isUp q = true →
          v = w.trainStep p h.did k x (!good && decide ((s.port p).settings.payloadMode = .drop))) ∧
        ((∀ q, u.portOf h.did = some q → u.isUp q = false) →
          v.train p h.did k = u.train p h.did k ∧ v.owedMarkers = u.owedMarkers ∧
          v.mcCells = u.mcCells ∧ v.markerUse = u.markerUse ∧
          (∀ d' c', v.queue d' c' = u.queue d' c') ∧
          (∀ d' g, v.bids d' g = u.bids d' g ∧ v.usage d' g = u.usage d' g ∧
            v.grant p d' g = u.grant p d' g) ∧
          (v.port p).counters = (w.port p).counters ∧ (v.port p).held = (s.port p).held ∧
          (v.port p).owed = (if k = .c0 ∧ (s.port p).held + (s.port p).owed < 8
            then (s.port p).owed + 1 else (s.port p).owed) ∧
          (v.did h.did).counters = (if u.portOf h.did = none
            then { (u.did h.did).counters with unmapped := countUp (u.did h.did).counters.unmapped }
            else { (u.did h.did).counters with destDown := countUp (u.did h.did).counters.destDown }))) ∧
      (∀ g : GClass, h.classify = .multicast g → v = w.multicastArrival p g h c.payload good) ∧
      (h.classify = .command → v = w.commandArrival p h c.payload good)

/-- An MDATA cell that is taken, a FIRST to a valid group or a cell of an OPEN train that the payload check lets
pass, goes to the receivers of R131 or R133 (R6, R129, R130). The storage of a taken MDATA cell (R131 to R133,
R135, R136): refused for MC_POOL, stored to no receiver, or stored once with one reference for each receiver
below the limit; the others are pruned. The multicast hold is judged at the storage on the free stores it leaves
(R137), and stays where nothing is stored. -/
def Obligations.MulticastCellsAreStoredOnce : Prop :=
  (∀ (s : State) (p : PortId) (c : GClass) (h : IngressHeader) (payload : Payload) (good : Bool) (x : StoredCell)
    (g : Group) (receivers : DidSet), s.groups[h.group] = g →
    (good = true ∨ (s.port p).settings.payloadMode = .forward) →
    ((h.first = true ∧ g.valid = true) ∨ (h.first = false ∧ (s.mcTrain p c).state = .open)) →
    x = { src := p, first := h.first, last := h.last, count := h.count, poison := !good, payload := payload } →
    (∀ d : Did, receivers.getLsbD d.val = true ↔
      if h.first then g.members.getLsbD d.val = true ∧ (∃ q, s.portOf d = some q ∧ s.isUp q = true) ∧
        ¬ (g.excludeSource = true ∧ s.portOf d = some p)
      else (s.mcTrain p c).snapshot.getLsbD d.val = true) →
    s.multicastArrival p c h payload good = s.mcTake p c x receivers) ∧
  ∀ (s t : State) (p : PortId) (c : GClass) (x : StoredCell) (receivers : DidSet) (limit : Nat),
    limit = (s.classes.get c).mcLimit → s.mcTake p c x receivers = t →
    (receivers ≠ 0 → s.poolSize ≤ s.poolUse →
      (t.port p).counters = { (s.port p).counters with mcPool := countUp (s.port p).counters.mcPool } ∧
      t.mcCells = s.mcCells ∧ t.poolUse = s.poolUse ∧ t.mcHold = s.mcHold ∧
      ∀ d : Did, (t.did d).counters = (s.did d).counters) ∧
    ((receivers = 0 ∨ s.poolUse < s.poolSize) →
      (∀ d : Did, DidSet.has receivers d = true → limit ≤ (s.did d).mcRefs.get c) →
      (t.port p).counters =
        { (s.port p).counters with mcNoMember := countUp (s.port p).counters.mcNoMember } ∧
      t.mcCells = s.mcCells ∧ t.poolUse = s.poolUse ∧ t.mcHold = s.mcHold) ∧
    (s.poolUse < s.poolSize → ∀ d₀ : Did, DidSet.has receivers d₀ = true → (s.did d₀).mcRefs.get c < limit →
      t.poolUse = s.poolUse + 1 ∧
      t.mcHold = (if s.poolSize - t.poolUse ≤ s.holdOn then true
        else if max s.holdOff (s.holdOn + 1) ≤ s.poolSize - t.poolUse then false else s.mcHold) ∧
      (t.port p).counters = (s.port p).counters ∧
      (∃ m : McCell, t.mcCells = s.mcCells ++ [m] ∧ m.cell = x ∧ 1 ≤ m.fanOut ∧
        m.fanOut = allDids.countP (fun d => DidSet.has receivers d && decide ((s.did d).mcRefs.get c < limit)) ∧
        ∀ d : Did, DidSet.has receivers d = true → (s.did d).mcRefs.get c < limit →
          t.queue d c.cls = s.queue d c.cls ++ [.mref m.name] ∧
          (t.did d).mcRefs.get c = (s.did d).mcRefs.get c + 1 ∧
          (t.did d).counters = (s.did d).counters) ∧
      ∀ d : Did, DidSet.has receivers d = true → limit ≤ (s.did d).mcRefs.get c →
        (t.did d).counters = { (s.did d).counters with mcPrune := countUp (s.did d).counters.mcPrune } ∧
        DidSet.has (t.mcTrain p c).snapshot d = false)

/-- The multicast train record (R129 to R131, R133, R134): a cell that is dropped, refused or taken, the state and
the snapshot after it, and the markers it makes. The members of a snapshot are judged at a FIRST: DIDs of a valid
group that are mapped to a port in UP and not excluded. `ks` are the markers in ascending order of DID, which is
the model's choice for members pruned by a later cell (log entry 8). -/
def Obligations.MulticastTrainsFollowTheirTable : Prop :=
  (∀ (p : PortId) (c : GClass) (m : DidSet),
    (∀ d : Did, DidSet.has m d = m.getLsbD d.val) ∧
    (∀ k : MarkerKey, k ∈ mcKeys p c m ↔
      k.src = p ∧ k.cls = c.cls ∧ k.mc = true ∧ m.getLsbD k.did.val = true) ∧
    (mcKeys p c m).Pairwise fun a b => a.did < b.did) ∧
  ∀ (s t : State) (p : PortId) (c : GClass) (h : IngressHeader) (payload : Payload) (good refused : Bool)
    (r : McTrain) (g : Group) (receivers kept : DidSet) (refusal : Option (PortCounters → PortCounters)),
    s.multicastArrival p c h payload good = t → s.mcTrain p c = r → s.groups[h.group] = g →
    refused = (!good && decide ((s.port p).settings.payloadMode = .drop)) →
    (∀ d : Did, DidSet.has receivers d = true ↔
      if h.first then DidSet.has g.members d = true ∧ s.reachable d = true ∧
        ¬ (g.excludeSource = true ∧ s.mapsTo d p = true)
      else DidSet.has r.snapshot d = true) →
    (∀ d : Did, DidSet.has kept d = true ↔
      DidSet.has receivers d = true ∧ (s.did d).mcRefs.get c < (s.classes.get c).mcLimit) →
    refusal = (if refused then some fun k => { k with payloadErr := countUp k.payloadErr }
      else if h.first && !g.valid then some fun k => { k with groupInvalid := countUp k.groupInvalid }
      else if receivers ≠ 0 ∧ s.poolSize ≤ s.poolUse then some fun k => { k with mcPool := countUp k.mcPool }
      else none) →
    (h.first = false → r.state = .idle →
      t = s.updPort p fun P => { P with counters :=
        if refused then { P.counters with payloadErr := countUp P.counters.payloadErr }
        else { P.counters with orphan := countUp P.counters.orphan } }) ∧
    (h.first = false → r.state = .broken →
      (t.port p).counters = (if refused
        then { (s.port p).counters with payloadErr := countUp (s.port p).counters.payloadErr }
        else { (s.port p).counters with broken := countUp (s.port p).counters.broken }) ∧
      t.mcTrain p c = (if h.last then ⟨.idle, 0⟩ else r) ∧ t.mcCells = s.mcCells ∧
      s.Marked t (if h.last then mcKeys p c r.snapshot else [])) ∧
    (∀ f, h.first = true ∨ r.state = .open → refusal = some f →
      (t.port p).counters = f (s.port p).counters ∧ t.mcCells = s.mcCells ∧ t.poolUse = s.poolUse ∧
      t.mcTrain p c = (if h.last then ⟨.idle, 0⟩ else { r with state := .broken }) ∧
      s.Marked t (if h.last && !(h.first && decide (r.state = .idle)) then mcKeys p c r.snapshot else [])) ∧
    (h.first = true ∨ r.state = .open → refusal = none →
      t.mcTrain p c = (if h.last then ⟨.idle, 0⟩ else ⟨.open, kept⟩) ∧
      ∃ (u : State) (n : Nat),
        (∀ (d : Did) (k : Cls), u.queue d k =
          s.queue d k ++ (if k = c.cls ∧ DidSet.has kept d = true then [.mref n] else [])) ∧
        u.markerUse = s.markerUse ∧
        u.owedMarkers = (s.owedMarkers.filter fun k =>
          !(h.first && decide (k.src = p ∧ k.cls = c.cls ∧ k.mc = true) && DidSet.has kept k.did)) ∧
        u.Marked t (mcKeys p c (r.snapshot &&& ~~~ kept)))

/-! ### Grants, markers and moves -/

/-- The issue condition, and the issue to the first entry that qualifies (R54, R64, R73 to R75, R77): the quota
reserved, the record raised with its deadline absent, the outbox entry placed or raised, and the entry moved to the
tail. Where the condition fails, with the DID MOVING or UNMAPPED or its port not UP, an allowance of 0, or no entry
that qualifies, GRANT_ISSUE issues nothing (R73; that such a row leaves the state is the model's choice, log
entry 6). -/
def Obligations.GrantsAreIssued : Prop :=
  ∀ (s : State) (d : Did) (c : GClass) (left : PortId → Nat) (qualifies : BidEntry → Prop),
    (∀ p, left p = match s.grant p d c with
      | none => 0
      | some g => g.remaining) →
    (∀ e, qualifies e ↔ 1 ≤ e.backlog - left e.src ∧ ((s.port e.src).grantOutbox.length < 8 ∨
      ∃ y ∈ (s.port e.src).grantOutbox, y.did = d ∧ y.cls = c)) →
    (((∀ p, (s.did d).map ≠ .mapped p) ∨ (∃ p, (s.did d).map = .mapped p ∧ s.isUp p = false) ∨
      s.allowance d c = 0 ∨ ∀ e ∈ s.bids d c, ¬ qualifies e) → exec (.grantIssue d c) s = .next s) ∧
    ∀ (p : PortId) (ahead behind : List BidEntry) (e : BidEntry) (q : Nat), (s.did d).map = .mapped p →
    s.isUp p = true → 1 ≤ s.allowance d c → 1 ≤ (s.classes.get c).grantMax →
    s.bids d c = ahead ++ e :: behind → ((s.bids d c).map fun x => x.src).Nodup →
    (∀ x ∈ ahead, ¬ qualifies x) → qualifies e →
    q = min (e.backlog - left e.src)
      (min (s.classes.get c).grantMax (s.allowance d c)) →
    1 ≤ q ∧ ∃ t, exec (.grantIssue d c) s = .next t ∧
      t.bids d c = ahead ++ behind ++ [e] ∧
      t.usage d c = { occupied := (s.usage d c).occupied, reserved := (s.usage d c).reserved + q } ∧
      t.grant e.src d c = some ⟨left e.src + q, none⟩ ∧
      (t.port e.src).grantOutbox =
        (if (s.port e.src).grantOutbox.any (fun x => decide (x.did = d ∧ x.cls = c))
         then (s.port e.src).grantOutbox.map (fun x =>
           if x.did = d ∧ x.cls = c then { x with quota := x.quota + q } else x)
         else (s.port e.src).grantOutbox ++ [{ cls := c, did := d, quota := q }]) ∧
      (∀ r d' c', (r, d', c') ≠ (e.src, d, c) → t.grant r d' c' = s.grant r d' c') ∧
      (∀ r, r ≠ e.src → t.port r = s.port r) ∧ (∀ d' : Did, d' ≠ d → t.did d' = s.did d') ∧
      t.markerUse = s.markerUse ∧ t.cmdQueue = s.cmdQueue ∧ t.now = s.now

/-- The expiry of a record (R59, R83): its remaining count returned, the record closed, GRANT_EXPIRED
counted, and the bid entry kept; `t` is the state before the end of the event. Without a deadline nothing
happens, and the clock stands at the deadline (the model's choices, log entries 6 and 7). -/
def Obligations.GrantsExpire : Prop :=
  ∀ (s : State) (p : PortId) (d : Did) (c : GClass),
    (∀ n time, s.grant p d c = some ⟨n, some time⟩ →
      ∃ t, exec (.grantExpiry p d c) s = .next (eventEnd s t) ∧ t.grant p d c = none ∧
        t.usage d c = { occupied := (s.usage d c).occupied, reserved := (s.usage d c).reserved - n } ∧
        (t.port p).counters =
          { (s.port p).counters with grantExpired := countUp (s.port p).counters.grantExpired } ∧
        (∀ d' c', t.bids d' c' = s.bids d' c' ∧ t.queue d' c'.cls = s.queue d' c'.cls) ∧
        (∀ r, r ≠ p → t.port r = s.port r) ∧ (∀ d' : Did, d' ≠ d → t.did d' = s.did d') ∧
        (t.port p).refusalOutbox = (s.port p).refusalOutbox ∧ t.now = max s.now time) ∧
    (∀ n, s.grant p d c = some ⟨n, none⟩ → exec (.grantExpiry p d c) s = .next s) ∧
    (s.grant p d c = none → exec (.grantExpiry p d c) s = .next s)

/-- A returned marker store serves the owed-marker list (R102): entries that cannot be served are discarded
from its head, and the next is placed. `t` is the state before the end of the event. A marker that is made is
placed while a store is free, and owed otherwise, once per key (R100, R101): so a list of different keys in
order. -/
def Obligations.OwedMarkersAreServed : Prop :=
  (∀ (s : State) (gone rest : List MarkerKey),
    (∀ k ∈ gone, s.reachable k.did = false) → s.markerUse < 64 →
    (s.owedMarkers = gone → exec .owedMarkerService s = .next (eventEnd s { s with owedMarkers := [] })) ∧
    (∀ k, s.owedMarkers = gone ++ k :: rest → s.reachable k.did = true →
      ∃ t, exec .owedMarkerService s = .next (eventEnd s t) ∧
        t.owedMarkers = rest ∧ t.markerUse = s.markerUse + 1 ∧
        t.queue k.did k.cls = s.queue k.did k.cls ++ [.mark k.src k.mc] ∧
        (∀ d c, (d, c) ≠ (k.did, k.cls) → t.queue d c = s.queue d c) ∧ t.ports = s.ports ∧
        ∀ d, (t.did d).map = (s.did d).map ∧ (t.did d).usage = (s.did d).usage)) ∧
  ∀ (s : State) (ks : List MarkerKey), ks.Nodup → s.Marked (s.makeMarks ks) ks

/-- The drain condition is the four parts of R147 empty together (R148), and a MOVING DID that an event drains
cuts over at the end of that event (R89, R106, R140, R148, R149, R176). Where the new port is not UP, a source
that held a bid for the DID draws DEST_DOWN, in ascending order of class (R69, R89). DRAINED_CUTOVER judges the
same of one DID; a DID that is not MOVING, or not drained, is left (the model's choices, log entries 4 and 6). -/
def Obligations.DrainedMovesCutOver : Prop :=
  (∀ (s : State) (d : Did), s.drained d = true ↔
    (∀ c : Cls, s.queue d c = []) ∧ (∀ (p : PortId) (c : GClass), s.grant p d c = none) ∧
    (∀ p : PortId, ∀ e ∈ (s.port p).grantOutbox, e.did ≠ d) ∧ ∀ k ∈ s.owedMarkers, k.did ≠ d) ∧
  (∀ (before s t : State) (d : Did), eventEnd before s = t →
    (((s.did d).map.isMoving = false ∨ s.drained d = false ∨ before.drained d = true) →
      t.did d = s.did d ∧ (∀ (p : PortId) (c : Cls), t.train p d c = s.train p d c) ∧
      ∀ (p : PortId) (c : GClass),
        DidSet.has (t.mcTrain p c).snapshot d = DidSet.has (s.mcTrain p c).snapshot d) ∧
    ∀ (port target : PortId) (deadline code : Nat),
      (s.did d).map = .moving port target deadline code → s.drained d = true → before.drained d = false →
      (t.did d).map = .mapped target ∧ (t.did d).lastMove = .drained ∧ (t.did d).moveDone = true ∧
      (t.did d).queues = (s.did d).queues ∧ (t.did d).usage = (s.did d).usage ∧
      (t.did d).counters = (s.did d).counters ∧
      (s.isUp target = true → (t.did d).bids = (s.did d).bids ∧
        (∀ (p : PortId) (c : Cls), t.train p d c = s.train p d c) ∧
        ∀ (p : PortId) (c : GClass),
          DidSet.has (t.mcTrain p c).snapshot d = DidSet.has (s.mcTrain p c).snapshot d) ∧
      (s.isUp target = false → (∀ c : GClass, t.bids d c = []) ∧
        ∀ p : PortId, (∀ c : Cls, t.train p d c = .idle) ∧
          ∀ c : GClass, DidSet.has (t.mcTrain p c).snapshot d = false ∧
            (s.isUp p = true → bidOf p (s.bids d c) ≠ none → s.RefusedOrLost t p ⟨c, d, .destDown⟩))) ∧
  ∀ (s : State) (d : Did) (port target : PortId) (deadline code : Nat),
    ((s.did d).map = .moving port target deadline code → s.drained d = true →
      ∃ t, exec (.drainedCutover d) s = .next t ∧ (t.did d).map = .mapped target ∧
        (t.did d).lastMove = .drained ∧ (t.did d).moveDone = true ∧
        (∀ c : Cls, t.queue d c = []) ∧ (t.did d).usage = (s.did d).usage ∧
        (t.did d).counters = (s.did d).counters ∧
        (s.isUp target = true → (t.did d).bids = (s.did d).bids ∧
          ∀ p : PortId, (∀ c : Cls, t.train p d c = s.train p d c) ∧
            ∀ c : GClass, t.mcTrain p c = s.mcTrain p c) ∧
        (s.isUp target = false → (∀ c : GClass, t.bids d c = []) ∧
          ∀ p : PortId, (∀ c : Cls, t.train p d c = .idle) ∧
            ∀ c : GClass, DidSet.has (t.mcTrain p c).snapshot d = false) ∧
        ((∀ c : GClass, ((s.bids d c).map fun e => e.src).Nodup) → ∀ p : PortId,
          (s.port p).Refused (t.port p) (if s.isUp target then [] else
            ([.c1, .c2, .c3].filter fun c => !decide (bidOf p (s.bids d c) = none)).map fun c =>
              ⟨c, d, .destDown⟩)) ∧
        (∀ e : Did, e ≠ d → t.did e = s.did e) ∧ t.now = s.now) ∧
    ((s.did d).map = .moving port target deadline code → s.drained d = false →
      exec (.drainedCutover d) s = .next s) ∧
    ((s.did d).map.isMoving = false → exec (.drainedCutover d) s = .next s)

/-- A forced move (R69, R86, R89, R102, R103, R106, R140, R150): owed markers discarded, grants revoked, trains
broken, queues flushed and counted MOVE_FLUSH, the credit of each class-0 cell flushed returned to its source
while that is UP (R124, R155), the marker stores returned serving the owed-marker list, and the DID cut over
FORCED. A source draws REVOKED for each record of the DID it held, and then DEST_DOWN for each bid where the new
port is not UP; that the REVOKED refusals come in ascending order of class is read by inference (log entry 8).
`t` is the state before the end of the event. The clock stands at the deadline, and a DID that is not MOVING is
left (the model's choices, log entries 6 and 7). -/
def Obligations.DeadlinesForceMoves : Prop :=
  ∀ (s : State) (d : Did) (port target : PortId) (deadline code : Nat) (owed : List MarkerKey),
    owed = s.owedMarkers.filter (fun k => !decide (k.did = d)) →
    ((s.did d).map = .moving port target deadline code →
      ∃ t, exec (.moveDeadline d) s = .next (eventEnd s t) ∧ (t.did d).map = .mapped target ∧
        (t.did d).lastMove = .forced ∧ (t.did d).moveDone = true ∧
        (∀ c : Cls, t.queue d c = []) ∧ (∀ k ∈ t.owedMarkers, k.did ≠ d) ∧
        (t.did d).counters.moveFlush = countUpBy (s.did d).counters.moveFlush (s.did d).queued ∧
        (t.did d).counters.flush = (s.did d).counters.flush ∧
        (∀ (q : PortId) (n : Nat), n = (s.queue d .c0).countP (QEntry.isFrom q) → n ≤ (s.port q).held →
          (t.port q).held = (s.port q).held - n ∧
          (t.port q).owed = (s.port q).owed + if s.isUp q then n else 0) ∧
        t.cmdQueue = s.cmdQueue ∧
        (s.isUp target = true → (t.did d).bids = (s.did d).bids) ∧
        (s.isUp target = false → ∀ c : GClass, t.bids d c = []) ∧
        ((∀ c : GClass, ((s.bids d c).map fun e => e.src).Nodup) → ∀ p : PortId,
          (s.port p).Refused (t.port p)
            ((([.c1, .c2, .c3].filter fun c => !decide (s.grant p d c = none)).map fun c => ⟨c, d, .revoked⟩) ++
              if s.isUp target then [] else
                ([.c1, .c2, .c3].filter fun c => !decide (bidOf p (s.bids d c) = none)).map fun c =>
                  ⟨c, d, .destDown⟩)) ∧
        (∀ p : PortId, (∀ c : GClass, t.grant p d c = none ∧
            DidSet.has (t.mcTrain p c).snapshot d = false) ∧
          ∀ c : Cls, t.train p d c =
            (if s.isUp target then (if s.train p d c = .idle then .idle else .broken) else .idle)) ∧
        (∀ e : Did, e ≠ d → (t.did e).map = (s.did e).map ∧ (t.did e).usage = (s.did e).usage ∧
          (t.did e).bids = (s.did e).bids ∧ ∀ c : Cls,
            ∃ ms, t.queue e c = s.queue e c ++ ms ∧
              ∀ x ∈ ms, ∃ src mc, x = .mark src mc ∧ ⟨src, e, c, mc⟩ ∈ owed) ∧
        ((∀ k ∈ owed, s.reachable k.did = true) → s.markerUse ≤ 64 → (s.did d).marks ≤ s.markerUse →
          t.owedMarkers = owed.drop (s.did d).marks ∧
          t.markerUse = s.markerUse - (s.did d).marks + min (s.did d).marks owed.length) ∧
        t.now = max s.now deadline) ∧
    ((s.did d).map.isMoving = false → exec (.moveDeadline d) s = .next s)

/-- The command unit (R157, R159). A held response is offered again, and the fall of the allowance use offers it
in its own event, so before a BUSY of a full queue (the manual leaves that order open: the model's choice, log
entry 8). While a response is held nothing is taken. A command that is taken has its effects, and then its
response is discarded, placed or held, by State.responded; an accepted FABRIC-RESET has none. A row whose command
is not the one at the head of the queue leaves the state (the model's choice, log entry 6). -/
def Obligations.HeldResponsesAreOffered : Prop :=
  (∀ (s : State) (p : PortId) (f : Frame), s.cmdUnit = .holding p f →
    (s.isUp p = true → s.elementUse < 32 →
      exec .heldResponseOffer s = .next
        { s.updPort p (fun P => { P with elements := P.elements ++ [f] }) with
          elementUse := s.elementUse + 1, cmdUnit := .ready }) ∧
    (s.isUp p = true → 32 ≤ s.elementUse → exec .heldResponseOffer s = .next s) ∧
    (s.isUp p = false → exec .heldResponseOffer s = .next { s with cmdUnit := .ready }) ∧
    ∀ n, 0 < n → n ≤ s.elementUse → s.elementUse - n < 32 → s.isUp p = true →
      s.freeElements n =
        { s.updPort p (fun P => { P with elements := P.elements ++ [f] }) with
          elementUse := s.elementUse - n + 1, cmdUnit := .ready }) ∧
  (∀ s : State, s.cmdUnit = .ready → exec .heldResponseOffer s = .next s) ∧
  ∀ (c : Instr) (code : Option Code) (s : State),
    (c, code) ∈ [(Instr.badCommand, none), (.identify, some .identify), (.portSet, some .portSet),
      (.portGet, some .portGet), (.classSet, some .classSet), (.poolSet, some .poolSet),
      (.lifetimeSet, some .lifetimeSet), (.mapSet, some .mapSet), (.mapMove, some .mapMove),
      (.mapGet, some .mapGet), (.groupSet, some .groupSet), (.groupGet, some .groupGet),
      (.noticeExpect, some .noticeExpect), (.noticeRead, some .noticeRead),
      (.countersRead, some .countersRead), (.testStart, some .testStart), (.testStop, some .testStop),
      (.testRead, some .testRead), (.linesSet, some .linesSet), (.fabricReset, some .fabricReset)] →
    instrOf code = c ∧
    (∀ p f, s.cmdUnit = .holding p f → exec c s = .next s) ∧
    (s.cmdQueue = [] → exec c s = .next s) ∧
    ∀ cmd rest, s.cmdQueue = cmd :: rest →
      (cmd.reading ≠ code → exec c s = .next s) ∧
      (s.cmdUnit = .ready → cmd.reading = code →
        (c = .fabricReset → (s.port cmd.src).settings.mayCommand = false) →
        ∃ (u : State) (f : Frame), exec c s = .next (u.responded cmd.src f) ∧ u.cmdUnit = .ready ∧
          u.cmdQueue = rest ∧
          f.code = cmd.frame.code ∧ f.tag = cmd.frame.tag)

/-! ### Notices -/

/-- The five watched conditions of a port (R173), and the notice unit after an event (R174, R177), which the end
of an event comes to, with the move-done flags of the moves the event drained (R148, R176): the match state of a
port is judged where its conditions changed, and its flag is set where a match was left: by every command but
DEVICE_RESET and NOTICE-EXPECT, FABRIC-RESET among them. NOTICE-READ and DEVICE_RESET alone clear flags (R178).
No notice goes out while flags were pending or where no flag is set. Where the pending set goes from empty to
non-empty one notice frame (R18) is built with the flags as they stand after the event, and a copy is placed at
each report port that is UP, in ascending order, while the element allowance has room. -/
def Obligations.NoticesFollowTheirConditions : Prop :=
  (∀ P : Port,
    (P.conditions.getLsbD 0 = true ↔ P.link = .up) ∧ (P.conditions.getLsbD 1 = true ↔ P.link = .faulted) ∧
    P.conditions.getLsbD 2 = P.stuck.asserted ∧ P.conditions.getLsbD 3 = P.quality.alarm ∧
    (P.conditions.getLsbD 4 = true ↔ P.link = .test ∧ P.test.sync = .inSync)) ∧
  (∀ before after : State, ∃ u : State, eventEnd before after = noticeStep before u ∧
    u.elementUse = after.elementUse ∧
    (∀ p : PortId, (u.port p).conditions = (after.port p).conditions ∧ (u.port p).link = (after.port p).link ∧
      (u.port p).settings = (after.port p).settings ∧ (u.port p).watchMask = (after.port p).watchMask ∧
      (u.port p).watchExpect = (after.port p).watchExpect ∧ (u.port p).watchMatch = (after.port p).watchMatch ∧
      (u.port p).noticeFlag = (after.port p).noticeFlag ∧ (u.port p).elements = (after.port p).elements) ∧
    ∀ d : Did, (u.did d).moveDone = true ↔ (after.did d).moveDone = true ∨
      ((after.did d).map.isMoving = true ∧ after.drained d = true ∧ before.drained d = false)) ∧
  (∀ (c : Instr) (s t : State), exec c s = .next t → (∀ straps, c ≠ .deviceReset straps) →
    (∀ p : PortId,
      (c ≠ .noticeExpect → (s.port p).watchMatch = true → (t.port p).watchMatch = false →
        (t.port p).noticeFlag = true) ∧
      (c ≠ .noticeRead → (s.port p).noticeFlag = true → (t.port p).noticeFlag = true)) ∧
    ∀ d : Did, c ≠ .noticeRead → (s.did d).moveDone = true → (t.did d).moveDone = true) ∧
  ∀ (before after t : State), noticeStep before after = t →
    (∀ (p : PortId) (P : Port), after.port p = P →
      (P.conditions = (before.port p).conditions →
        (t.port p).watchMatch = P.watchMatch ∧ (t.port p).noticeFlag = P.noticeFlag) ∧
      (P.conditions ≠ (before.port p).conditions →
        (t.port p).watchMatch =
          decide (∀ i : Fin 5, P.watchMask.getLsbD i = true →
            P.conditions.getLsbD i = P.watchExpect.getLsbD i) ∧
        ((t.port p).noticeFlag = true ↔
          P.noticeFlag = true ∨ (P.watchMatch = true ∧ (t.port p).watchMatch = false))) ∧
      (t.port p).link = P.link ∧ (t.port p).settings = P.settings) ∧
    t.dids = after.dids ∧
    (t.noticePending = true ↔
      (∃ p : PortId, (t.port p).noticeFlag = true) ∨ ∃ d : Did, (t.did d).moveDone = true) ∧
    (before.noticePending = true ∨ t.noticePending = false →
      t.elementUse = after.elementUse ∧ ∀ p : PortId, (t.port p).elements = (after.port p).elements) ∧
    (before.noticePending = false → t.noticePending = true →
      ∃ f : Frame, f.word 0 = 0x80000002 ∧
        (∀ i : Fin 32, (f.word 1).getLsbD i =
          decide (∃ p : PortId, p.val = i.val ∧ (t.port p).noticeFlag = true)) ∧
        (∀ d : Did, (f.word 2).getLsbD d.val = (t.did d).moveDone) ∧ (∀ i, 3 ≤ i → f.word i = 0) ∧
        ∀ p : PortId, (t.port p).elements = (after.port p).elements ++
          (if (after.port p).settings.report = true ∧ after.isUp p = true ∧
              after.elementUse + (allPorts.countP fun q =>
                decide (q < p) && (after.port q).settings.report && after.isUp q) < 32
           then [f] else []))

/-! ### Commands -/

/-- R163: IDENTIFY and LINES-SET, and the words each needs. -/
def Obligations.IdentifyAndLinesSet : Prop :=
  (∀ x : CmdCell, x.first = true → x.last = true →
    (x.frame.code = 0x01 → (x.reading = some .identify ↔ x.frame.count ≤ 31)) ∧
    (x.frame.code = 0x12 →
      (x.reading = some .linesSet ↔ 2 ≤ x.frame.count ∧ x.frame.count ≤ 31))) ∧
  ∀ (s : State) (cmd : CmdCell) (rest : List CmdCell),
    (Ready s cmd rest (some .identify) →
      exec .identify s = .next (s.answered cmd rest (responseFrame cmd.frame .done
        [0x0316, 0x2432, 1, s.plane.setWidth 32, 24]))) ∧
    (Ready s cmd rest (some .linesSet) →
      (∀ (a b : LineFunction) (i j : Fin 5),
        [LineFunction.low, .high, .noticePending, .anyFaulted, .mcHold][i]? = some a →
        [LineFunction.low, .high, .noticePending, .anyFaulted, .mcHold][j]? = some b →
        (cmd.param 1).toNat = i → (cmd.param 2).toNat = j →
        exec .linesSet s = .next
          { s.answered cmd rest (responseFrame cmd.frame .done []) with status0 := a, status1 := b }) ∧
      (4 < (cmd.param 1).toNat ∨ 4 < (cmd.param 2).toNat →
        exec .linesSet s = .next (s.answered cmd rest (responseFrame cmd.frame .badValue []))))

/-- An accepted PORT-SET (R25, R35, R36, R39, R42, R161, R164): the settings named change, the others keep their
values, the link state follows enable and the fault causes, and the last down cause is DISABLE or FAULT where the
port leaves UP. That enable acts before quality-fault, so that a PORT-SET which clears the one and brings a fault
cause by the other records DISABLE, is the model's choice (log entry 11). A port that enable takes out of TEST
stops its pattern unit, with the results kept (R189). D below A is CLAMPED where D is named (read by inference,
log entry 11). `t` is the state before the response is offered. That the notices of the effects stand in the
element lists before the response is the model's choice (log entry 8). -/
def Obligations.PortSetChangesTheNamed : Prop :=
  ∀ (s : State) (cmd : CmdCell) (rest : List CmdCell) (p : PortId) (P : Port) (o : Settings) (named : Nat → Bool),
    (∀ i, named i = (cmd.param 2).getLsbD i) → Ready s cmd rest (some .portSet) →
    (cmd.param 1).toNat = p.val → s.port p = P → P.settings = o →
    (((named 0 && decide (cmd.param 3 = 0)) || (named 10 && decide (cmd.param 14 = 0))) = true →
      P.link = .up → o.mayCommand = true →
      ∃ q, q ≠ p ∧ (s.port q).link = .up ∧ (s.port q).settings.mayCommand = true) →
    (named 9 = true → 1 ≤ (cmd.param 12).toNat ∧ (cmd.param 12).toNat ≤ 16) →
    (named 11 = true → cmd.param 15 ≠ 0 →
      (allPorts.filter fun q => (s.port q).settings.report && !decide (q = p)).length < 2) →
    ∃ (t : State) (n : Settings), exec .portSet s = .next (t.responded cmd.src (responseFrame cmd.frame
        (if (named 5 && decide (255 < (cmd.param 8).toNat)) ||
            (named 6 && decide (63 < (cmd.param 9).toNat)) ||
            (named 7 && decide (63 < (cmd.param 10).toNat)) ||
            (named 8 && decide (63 < (cmd.param 11).toNat)) ||
            (named 8 && decide (n.qualD < n.qualA)) then .clamped else .done) [])) ∧
      (t.port p).settings = n ∧
      n.enable = (if named 0 then decide (cmd.param 3 ≠ 0) else o.enable) ∧
      n.autoRecentre = (if named 1 then decide (cmd.param 4 ≠ 0) else o.autoRecentre) ∧
      n.payloadMode = (if named 2 then (if cmd.param 5 = 0 then .forward else .drop)
        else o.payloadMode) ∧
      n.squelch = (if named 3 then decide (cmd.param 6 ≠ 0) else o.squelch) ∧
      n.qualityFault = (if named 4 then decide (cmd.param 7 ≠ 0) else o.qualityFault) ∧
      n.stuckN = (if named 5 then min 255 (cmd.param 8).toNat else o.stuckN) ∧
      n.stuckK = (if named 6 then min 63 (cmd.param 9).toNat else o.stuckK) ∧
      n.qualA = (if named 7 then min 63 (cmd.param 10).toNat else o.qualA) ∧
      n.qualD = (if named 8 then min 63 (cmd.param 11).toNat else o.qualD) ∧
      (named 9 = true → n.cadence.length = (cmd.param 12).toNat ∧
        ∀ i, i < (cmd.param 12).toNat → n.cadence[i]? = some ((cmd.param 13).getLsbD i)) ∧
      (named 9 = false → n.cadence = o.cadence) ∧
      n.mayCommand = (if named 10 then decide (cmd.param 14 ≠ 0) else o.mayCommand) ∧
      n.report = (if named 11 then decide (cmd.param 15 ≠ 0) else o.report) ∧
      (∀ q, q ≠ p → (t.port q).settings = (s.port q).settings ∧ (t.port q).test = (s.port q).test) ∧
      (t.port p).test =
        (if o.enable && !n.enable && decide (P.link = .test)
         then { P.test with running := false, sync := .searching, badRun := 0 } else P.test) ∧
      (t.port p).link =
        (if o.enable && !n.enable then .disabled
         else match (if !o.enable && n.enable && decide (P.link = .disabled) then .acquiring
             else P.link) with
           | .disabled => .disabled
           | .test => .test
           | .faulted => if P.stuck.asserted || (P.quality.alarm && n.qualityFault) then .faulted
               else .acquiring
           | l => if P.stuck.asserted || (P.quality.alarm && n.qualityFault) then .faulted else l) ∧
      (t.port p).lastDown =
        (if P.link ≠ .up then P.lastDown
         else if o.enable && !n.enable then .disable
         else if P.stuck.asserted || (P.quality.alarm && n.qualityFault) then .fault else P.lastDown) ∧
      (((t.port p).link = .up ∨ P.link ≠ .up) → t.dids = s.dids) ∧
      t.cmdQueue = rest ∧ t.classes = s.classes ∧ t.lifetime = s.lifetime ∧ t.groups = s.groups ∧
      t.poolSize = s.poolSize ∧
      t.cmdUnit = .ready ∧
      ((t.port cmd.src).link = .up →
        ∃ fs, (t.port cmd.src).elements = (s.port cmd.src).elements ++ fs)

/-- A PORT-SET or TEST-START that would take the last UP port with may-command out of that set is answered
LOCKOUT and changes nothing (R160, R161). -/
def Obligations.LockoutKeepsTheLastCommander : Prop :=
  ∀ (s : State) (cmd : CmdCell) (rest : List CmdCell) (p : PortId) (named : Nat → Bool),
    (∀ i, named i = (cmd.param 2).getLsbD i) → (cmd.param 1).toNat = p.val → (s.port p).link = .up →
    (s.port p).settings.mayCommand = true →
    (∀ q, q ≠ p → (s.port q).link = .up → (s.port q).settings.mayCommand = false) →
    (Ready s cmd rest (some .portSet) →
      ((named 0 && decide (cmd.param 3 = 0)) || (named 10 && decide (cmd.param 14 = 0))) = true →
      exec .portSet s = .next (s.answered cmd rest (responseFrame cmd.frame .lockout []))) ∧
    (Ready s cmd rest (some .testStart) → (cmd.param 2).toNat ≤ 4 → (cmd.param 3).toNat ≤ 4 →
      (cmd.param 6).toNat ≤ 3 →
      exec .testStart s = .next (s.answered cmd rest (responseFrame cmd.frame .lockout [])))

/-- R165: PORT-GET, and the word it needs. -/
def Obligations.PortGetReports : Prop :=
  (∀ x : CmdCell, x.first = true → x.last = true → x.frame.code = 0x03 →
    (x.reading = some .portGet ↔ 1 ≤ x.frame.count ∧ x.frame.count ≤ 31)) ∧
  ∀ (s : State) (cmd : CmdCell) (rest : List CmdCell) (p : PortId) (P : Port) (o : Settings)
    (link cause : Nat),
    Ready s cmd rest (some .portGet) → (cmd.param 1).toNat = p.val → s.port p = P → P.settings = o →
    [LinkState.disabled, .acquiring, .waiting, .up, .faulted, .test][link]? = some P.link →
    [DownCause.none, .headerLoss, .partner, .slip, .fault, .test, .disable, .fabricReset][cause]? =
      some P.lastDown →
    ∃ cadence : BitVec 32,
      (o.cadence.length ≤ 16 → ∀ i, i < o.cadence.length → cadence.getLsbD i = o.cadence.getD i false) ∧
      exec .portGet s = .next (s.answered cmd rest (responseFrame cmd.frame .done
        [BitVec.ofNat 32 link, if P.stuck.asserted then 1 else 0, if P.quality.alarm then 1 else 0,
         BitVec.ofNat 32 cause, P.quality.figure.setWidth 32,
         if P.holds.c0 then 1 else 0, if P.holds.c1 then 1 else 0, if P.holds.c2 then 1 else 0,
         if P.holds.c3 then 1 else 0,
         if o.enable then 1 else 0, if o.autoRecentre then 1 else 0,
         if o.payloadMode = .drop then 1 else 0, if o.squelch then 1 else 0,
         if o.qualityFault then 1 else 0, BitVec.ofNat 32 o.stuckN, BitVec.ofNat 32 o.stuckK,
         BitVec.ofNat 32 o.qualA, BitVec.ofNat 32 o.qualD, BitVec.ofNat 32 o.cadence.length, cadence,
         if o.mayCommand then 1 else 0, if o.report then 1 else 0]))

/-- R166: CLASS-SET and LIFETIME-SET, and the words each needs. -/
def Obligations.ClassAndLifetimeSet : Prop :=
  (∀ x : CmdCell, x.first = true → x.last = true →
    (x.frame.code = 0x04 →
      (x.reading = some .classSet ↔ 12 ≤ x.frame.count ∧ x.frame.count ≤ 31)) ∧
    (x.frame.code = 0x06 →
      (x.reading = some .lifetimeSet ↔ 1 ≤ x.frame.count ∧ x.frame.count ≤ 31))) ∧
  ∀ (s : State) (cmd : CmdCell) (rest : List CmdCell),
    (Ready s cmd rest (some .classSet) →
      ∀ (k : Nat → ClassSettings) (clamped : Bool),
        (∀ i, k i =
          { grantMax := max 1 (min 64 (cmd.param (4 * i + 1)).toNat),
            exponent := max (-3) (min 3 (cmd.param (4 * i + 2)).toInt),
            weight := max 1 (min 15 (cmd.param (4 * i + 3)).toNat),
            mcLimit := min 1024 (cmd.param (4 * i + 4)).toNat }) →
        (clamped = true ↔ ∃ i, i < 3 ∧
          ((k i).grantMax ≠ (cmd.param (4 * i + 1)).toNat ∨
           (k i).exponent ≠ (cmd.param (4 * i + 2)).toInt ∨
           (k i).weight ≠ (cmd.param (4 * i + 3)).toNat ∨
           (k i).mcLimit ≠ (cmd.param (4 * i + 4)).toNat)) →
        exec .classSet s = .next
          { s.answered cmd rest (responseFrame cmd.frame (if clamped then .clamped else .done)
              ((List.range 3).flatMap fun i =>
                [BitVec.ofNat 32 (k i).grantMax, BitVec.ofInt 32 (k i).exponent,
                 BitVec.ofNat 32 (k i).weight, BitVec.ofNat 32 (k i).mcLimit])) with
            classes := ⟨k 0, k 1, k 2⟩ }) ∧
    (Ready s cmd rest (some .lifetimeSet) →
      exec .lifetimeSet s = .next
        { s.answered cmd rest (responseFrame cmd.frame
            (if (cmd.param 1).toNat < 2 ∨ 250 < (cmd.param 1).toNat then .clamped else .done)
            [BitVec.ofNat 32 (max 2 (min 250 (cmd.param 1).toNat))]) with
          lifetime := max 2 (min 250 (cmd.param 1).toNat) })

/-- POOL-SET judged in the order of R61 after the clamping of R60, and its effect (R62, R137, R138,
R167). `t` is the state before the response is offered. -/
def Obligations.PoolSetIsJudged : Prop :=
  ∀ (s : State) (cmd : CmdCell) (rest : List CmdCell) (pool on off : Nat) (floor used : Did → Nat)
    (shared : Int) (excess : Nat),
    Ready s cmd rest (some .poolSet) →
    pool = min ((cmd.param 1).toNat / 64 * 64) 8192 →
    on = min (cmd.param 2).toNat 8192 → off = min (cmd.param 3).toNat 8192 →
    (∀ d, floor d = min 512 (if d.val % 2 = 0 then (cmd.param (4 + d.val / 2)).toNat / 2 ^ 16
      else (cmd.param (4 + d.val / 2)).toNat % 2 ^ 16)) →
    shared = 16384 - 224 - 64 - (pool : Int) - ((allDids.map floor).sum : Int) →
    (∀ d, used d = (s.usage d .c1).occupied + (s.usage d .c1).reserved + (s.usage d .c2).occupied +
      (s.usage d .c2).reserved + (s.usage d .c3).occupied + (s.usage d .c3).reserved) →
    excess = (allDids.map fun d => used d - floor d).sum →
    (shared < 1024 →
      exec .poolSet s = .next (s.answered cmd rest (responseFrame cmd.frame .badValue []))) ∧
    (1024 ≤ shared → (shared < excess ∨ pool < s.poolUse) →
      exec .poolSet s = .next (s.answered cmd rest (responseFrame cmd.frame .inUse []))) ∧
    (1024 ≤ shared → (excess : Int) ≤ shared → s.poolUse ≤ pool →
      ∃ (t : State) (st : Status), exec .poolSet s = .next (t.responded cmd.src (responseFrame cmd.frame st
          [BitVec.ofInt 32 shared, BitVec.ofNat 32 excess, BitVec.ofNat 32 (shared - excess).toNat])) ∧
        (st = .done ∨ st = .clamped) ∧ t.ports = (s.taken cmd rest).ports ∧ t.cmdQueue = rest ∧
        t.cmdUnit = .ready ∧ t.elementUse = s.elementUse ∧
        t.poolSize = pool ∧ t.holdOn = on ∧ t.holdOff = off ∧ t.sharedPool = shared ∧
        t.mcHold = (if pool - s.poolUse ≤ on then true
          else if max off (on + 1) ≤ pool - s.poolUse then false else s.mcHold) ∧
        (∀ d, t.did d = { s.did d with floor := floor d }) ∧ t.mcCells = s.mcCells ∧
        t.poolUse = s.poolUse ∧ (∀ p d c, t.grant p d c = s.grant p d c) ∧
        (st = .clamped ↔ pool ≠ (cmd.param 1).toNat ∨ on ≠ (cmd.param 2).toNat ∨
          off ≠ (cmd.param 3).toNat ∨ off ≤ on ∨
          ∃ d : Did, floor d ≠ (if d.val % 2 = 0 then (cmd.param (4 + d.val / 2)).toNat / 2 ^ 16
            else (cmd.param (4 + d.val / 2)).toNat % 2 ^ 16)))

/-- MAP-SET (R69, R89, R106, R140, R144, R168): BUSY while MOVING, IN_USE while not idle, and otherwise the new
entry with the other blocks' share, its bids removed with UNMAPPED or DEST_DOWN in ascending order of class where
the DID has no port that is UP. `t` is the state before the response is offered. -/
def Obligations.MapSetNeedsAnIdleDid : Prop :=
  ∀ (s : State) (cmd : CmdCell) (rest : List CmdCell) (d : Did) (m : DidMap),
    Ready s cmd rest (some .mapSet) → (cmd.param 1).toNat = d.val →
    ((cmd.param 2 = 0 ∧ m = .unmapped) ∨
      (cmd.param 2 ≠ 0 ∧ ∃ p : PortId, (cmd.param 3).toNat = p.val ∧ m = .mapped p)) →
    ((s.did d).map.isMoving = true →
      exec .mapSet s = .next (s.answered cmd rest (responseFrame cmd.frame .busy []))) ∧
    ((s.did d).map.isMoving = false → s.drained d = false →
      exec .mapSet s = .next (s.answered cmd rest (responseFrame cmd.frame .inUse []))) ∧
    ((s.did d).map.isMoving = false → s.drained d = true →
      ∃ t : State, exec .mapSet s = .next (t.responded cmd.src (responseFrame cmd.frame .done [])) ∧
        (t.did d).map = m ∧ (t.did d).lastMove = (s.did d).lastMove ∧
        (t.did d).moveDone = (s.did d).moveDone ∧ (t.did d).queues = (s.did d).queues ∧
        (t.did d).usage = (s.did d).usage ∧ (t.did d).counters = (s.did d).counters ∧
        (∀ q, m = .mapped q → s.isUp q = true → (t.did d).bids = (s.did d).bids) ∧
        ((∀ q, m = .mapped q → s.isUp q = false) → ∀ c : GClass, t.bids d c = []) ∧
        (∀ p : PortId, (∀ c : Cls, t.train p d c = .idle) ∧
          ∀ c : GClass, DidSet.has (t.mcTrain p c).snapshot d = false) ∧
        (∀ e : Did, e ≠ d → t.did e = s.did e) ∧ t.cmdQueue = rest ∧
        t.cmdUnit = .ready ∧ t.elementUse = s.elementUse ∧
        ((∀ c : GClass, ((s.bids d c).map fun e => e.src).Nodup) → ∀ (p : PortId) (why : Reason),
          why = (if m = .unmapped then .unmapped else .destDown) →
          (t.port p).elements = (s.port p).elements ∧
          (s.port p).Refused (t.port p) (if ∃ q, m = .mapped q ∧ s.isUp q = true then [] else
            ([.c1, .c2, .c3].filter fun c => !decide (bidOf p (s.bids d c) = none)).map fun c => ⟨c, d, why⟩)))

/-- MAP-MOVE (R89, R106, R140, R145, R148, R149, R168). The deadline is a time of the model's clock (log entry
7). A move that completes at once is drained in the processing: `t` is the state before the response is offered,
and its bids, trains and places in snapshots are kept, but at a move to another port that is not UP: there its
bids draw the DEST_DOWN refusals of R89, its trains are IDLE and no snapshot holds it. That the notice of that
move stands in the element lists before the response is the model's choice (log entry 8). -/
def Obligations.MapMoveStartsAMove : Prop :=
  ∀ (s : State) (cmd : CmdCell) (rest : List CmdCell) (d : Did) (target : PortId) (st : Status),
    Ready s cmd rest (some .mapMove) → (cmd.param 1).toNat = d.val → (cmd.param 2).toNat = target.val →
    st = (if 3 < (cmd.param 3).toNat then .clamped else .done) →
    ((s.did d).map = .unmapped →
      exec .mapMove s = .next (s.answered cmd rest (responseFrame cmd.frame .badValue []))) ∧
    ((s.did d).map.isMoving = true →
      exec .mapMove s = .next (s.answered cmd rest (responseFrame cmd.frame .busy []))) ∧
    (∀ port, (s.did d).map = .mapped port → target ≠ port → s.drained d = false →
      ∃ time, (time, min 3 (cmd.param 3).toNat) ∈ [(500, 0), (2000, 1), (8000, 2), (32000, 3)] ∧
        exec .mapMove s = .next
          ((s.answered cmd rest (responseFrame cmd.frame st [2])).updDid d fun D =>
            { D with map := .moving port target (s.now + time) (min 3 (cmd.param 3).toNat) })) ∧
    (∀ (port : PortId) (keep : Bool), (s.did d).map = .mapped port → (target = port ∨ s.drained d = true) →
      keep = (decide (target = port) || s.isUp target) →
      ∃ t : State, exec .mapMove s = .next (t.responded cmd.src (responseFrame cmd.frame st [1])) ∧
        (t.did d).map = .mapped target ∧ (t.did d).lastMove = .drained ∧
        (t.did d).moveDone = true ∧ (t.did d).queues = (s.did d).queues ∧
        (t.did d).usage = (s.did d).usage ∧ (∀ e : Did, e ≠ d → t.did e = s.did e) ∧
        (t.did d).counters = (s.did d).counters ∧
        (∀ c : GClass, t.bids d c = if keep then s.bids d c else []) ∧
        (∀ p : PortId,
          (∀ (e : Did) (c : Cls), t.train p e c = if e ≠ d ∨ keep = true then s.train p e c else .idle) ∧
          ∀ c : GClass, (t.mcTrain p c).state = (s.mcTrain p c).state ∧
            ∀ e : Did, DidSet.has (t.mcTrain p c).snapshot e =
              (DidSet.has (s.mcTrain p c).snapshot e && (decide (e ≠ d) || keep))) ∧
        t.cmdQueue = rest ∧ t.cmdUnit = .ready ∧
        ((∀ c : GClass, ((s.bids d c).map fun e => e.src).Nodup) → ∀ p : PortId,
          (∃ fs, (t.port p).elements = (s.port p).elements ++ fs) ∧
          (s.port p).Refused (t.port p) (if keep then [] else
            ([.c1, .c2, .c3].filter fun c => !decide (bidOf p (s.bids d c) = none)).map fun c =>
              ⟨c, d, .destDown⟩)))

/-- MAP-GET, with the four parts of R147 (R147, R154, R168). With it the port a DID maps to, MAPPED or MOVING
(R142), where it is not destination-down (R143), and the entries of its four queues. -/
def Obligations.MapGetReports : Prop :=
  (∀ (s : State) (d : Did) (p : PortId),
    (s.portOf d = some p ↔ (s.did d).map = .mapped p ∨
      ∃ target time code, (s.did d).map = .moving p target time code) ∧
    (s.mapsTo d p = true ↔ s.portOf d = some p) ∧
    (s.reachable d = true ↔ ∃ q, s.portOf d = some q ∧ (s.port q).link = .up) ∧
    (s.did d).queued = (s.queue d .c0).length + (s.queue d .c1).length + (s.queue d .c2).length +
      (s.queue d .c3).length) ∧
  ∀ (s : State) (cmd : CmdCell) (rest : List CmdCell) (d : Did) (result : Nat) (queued granted boxed owed : Bool),
    (queued = true ↔ ∃ c : Cls, s.queue d c ≠ []) →
    (granted = true ↔ ∃ (p : PortId) (c : GClass), s.grant p d c ≠ none) →
    (boxed = true ↔ ∃ p : PortId, ∃ e ∈ (s.port p).grantOutbox, e.did = d) →
    (owed = true ↔ ∃ k ∈ s.owedMarkers, k.did = d) →
    Ready s cmd rest (some .mapGet) → (cmd.param 1).toNat = d.val →
    [MoveResult.none, .drained, .forced, .interrupted][result]? = some (s.did d).lastMove →
    exec .mapGet s = .next (s.answered cmd rest (responseFrame cmd.frame .done
      (match (s.did d).map with
       | .unmapped => [0, 0, 0, 0, BitVec.ofNat 32 result, 0, 0, 0, 0]
       | .mapped p => [1, BitVec.ofNat 32 p.val, 0, 0, BitVec.ofNat 32 result, 0, 0, 0, 0]
       | .moving p t _ k =>
         [2, BitVec.ofNat 32 p.val, BitVec.ofNat 32 t.val, BitVec.ofNat 32 k, BitVec.ofNat 32 result,
          if queued then 1 else 0, if granted then 1 else 0, if boxed then 1 else 0, if owed then 1 else 0])))

/-- GROUP-SET replaces one whole entry, and GROUP-GET returns one as stored (R127, R169). COUNTERS-READ returns
the counters of one scope, and clears them after the values are taken (R169, R180). A counter rises by 1 at each
event and stays at 2^32 − 1 (R179). -/
def Obligations.GroupsAndCountersAreRead : Prop :=
  (∀ (c : BitVec 32) (n : Nat), (countUp c).toNat = min (c.toNat + 1) 4294967295 ∧
    (countUpBy c n).toNat = min (c.toNat + n) 4294967295) ∧
  (∀ (s : State) (cmd : CmdCell) (rest : List CmdCell) (g : GroupId), (cmd.param 1).toNat = g.val →
    (Ready s cmd rest (some .groupSet) →
      exec .groupSet s = .next { s.answered cmd rest (responseFrame cmd.frame .done []) with
        groups := s.groups.set g { valid := decide (cmd.param 2 ≠ 0), members := cmd.param 3,
                                   excludeSource := decide (cmd.param 4 ≠ 0) } }) ∧
    (Ready s cmd rest (some .groupGet) →
      exec .groupGet s = .next (s.answered cmd rest (responseFrame cmd.frame .done
        [if s.groups[g].valid then 1 else 0, s.groups[g].members,
         if s.groups[g].excludeSource then 1 else 0])))) ∧
  ∀ (s : State) (cmd : CmdCell) (rest : List CmdCell), Ready s cmd rest (some .countersRead) →
    (∀ p : PortId, (cmd.param 1).toNat = 0 → (cmd.param 2).toNat = p.val →
      ∃ words, words = (match (s.port p).counters with
          | ⟨i, o, h, k, e, sl, la, or, br, c0, mp, nm, gi, bb, rl, ge⟩ =>
            [i, o, h, k, e, sl, la, or, br, c0, mp, nm, gi, bb, rl, ge]) ∧
        exec .countersRead s = .next
          ((s.answered cmd rest (responseFrame cmd.frame .done words)).updPort p fun P =>
            { P with counters := if cmd.param 3 = 0 then P.counters
                else ⟨0, 0, 0, 0, 0, 0, 0, 0, 0, 0, 0, 0, 0, 0, 0, 0⟩ })) ∧
    (∀ d : Did, (cmd.param 1).toNat = 1 → (cmd.param 2).toNat = d.val →
      exec .countersRead s = .next
        ((s.answered cmd rest (responseFrame cmd.frame .done
          [(s.did d).counters.unmapped, (s.did d).counters.destDown, (s.did d).counters.flush,
           (s.did d).counters.moveFlush, (s.did d).counters.mcPrune])).updDid d fun D =>
          { D with counters := if cmd.param 3 = 0 then D.counters else ⟨0, 0, 0, 0, 0⟩ })) ∧
    ((cmd.param 1).toNat = 2 →
      exec .countersRead s = .next
        { s.answered cmd rest (responseFrame cmd.frame .done [s.cmdLost]) with
          cmdLost := if cmd.param 3 = 0 then s.cmdLost else 0 }) ∧
    ((2 < (cmd.param 1).toNat ∨ ((cmd.param 1).toNat = 0 ∧ 23 < (cmd.param 2).toNat) ∨
        ((cmd.param 1).toNat = 1 ∧ 31 < (cmd.param 2).toNat)) →
      exec .countersRead s = .next (s.answered cmd rest (responseFrame cmd.frame .badValue [])))

/-- NOTICE-EXPECT replaces the mask and the expected values of a port, records the match state, and sets no flag
(R169, R175). NOTICE-READ returns the flags and clears every one (R18, R178). -/
def Obligations.NoticesAreExpectedAndRead : Prop :=
  (∀ (s : State) (cmd : CmdCell) (rest : List CmdCell) (p : PortId) (mask expect : BitVec 5),
    Ready s cmd rest (some .noticeExpect) → (cmd.param 1).toNat = p.val →
    (∀ i : Fin 5, mask.getLsbD i = (cmd.param 2).getLsbD i ∧
      expect.getLsbD i = (cmd.param 3).getLsbD i) →
    exec .noticeExpect s = .next
      ((s.answered cmd rest (responseFrame cmd.frame .done [])).updPort p fun P =>
        { P with watchMask := mask, watchExpect := expect,
                 watchMatch := decide (∀ i : Fin 5, mask.getLsbD i = true →
                   (s.port p).conditions.getLsbD i = expect.getLsbD i) })) ∧
  ∀ (s : State) (cmd : CmdCell) (rest : List CmdCell) (w1 w2 : BitVec 32),
    Ready s cmd rest (some .noticeRead) →
    (∀ i : Fin 32, w1.getLsbD i = decide (∃ p : PortId, p.val = i.val ∧ (s.port p).noticeFlag = true)) →
    (∀ d : Did, w2.getLsbD d.val = (s.did d).moveDone) →
    exec .noticeRead s = .next
      (((s.answered cmd rest (responseFrame cmd.frame .done [w1, w2])).mapPorts fun _ P =>
        { P with noticeFlag := false }).mapDids fun _ D => { D with moveDone := false })

/-- TEST-START and TEST-STOP, and the codes that are BAD_VALUE (R38, R170, R183, R184, R189). A test runs from the
first slot after its start. `t` is the state before the response is offered. That the notices of the effects stand
in the element lists before the response is the model's choice (log entry 8). -/
def Obligations.TestsStartAndStop : Prop :=
  ∀ (s : State) (cmd : CmdCell) (rest : List CmdCell) (p : PortId) (P : Port),
    (cmd.param 1).toNat = p.val → s.port p = P →
    (Ready s cmd rest (some .testStart) →
      ∀ (gen chk : Pattern) (base : Timebase),
      [Pattern.off, .p7, .p23, .p31, .user][(cmd.param 2).toNat]? = some gen →
      [Pattern.off, .p7, .p23, .p31, .user][(cmd.param 3).toNat]? = some chk →
      [Timebase.continuous, .bits24, .bits32, .bits40][(cmd.param 6).toNat]? = some base →
      (P.link = .up → P.settings.mayCommand = true →
        ∃ q, q ≠ p ∧ (s.port q).link = .up ∧ (s.port q).settings.mayCommand = true) →
      ∃ t : State, exec .testStart s = .next (t.responded cmd.src (responseFrame cmd.frame .done [])) ∧
        (t.port p).link = .test ∧ t.cmdUnit = .ready ∧
        ((t.port cmd.src).link = .up →
          ∃ fs, (t.port cmd.src).elements = (s.port cmd.src).elements ++ fs) ∧
        (t.port p).lastDown = (if P.link = .up then .test else P.lastDown) ∧
        (t.port p).settings = P.settings ∧ (t.port p).alignCount = 0 ∧ (t.port p).failCount = 0 ∧
        (t.port p).partnerAligned = false ∧ (t.port p).holds = ⟨false, false, false, false⟩ ∧
        (t.port p).test.settings =
          { genPattern := gen, chkPattern := chk, genInvert := decide (cmd.param 4 ≠ 0),
            chkInvert := decide (cmd.param 5 ≠ 0), timebase := base,
            syncMask := decide (cmd.param 7 ≠ 0), user := cmd.param 8 ++ cmd.param 9 } ∧
        (t.port p).test.sync = .searching ∧ (t.port p).test.syncEver = false ∧
        (t.port p).test.errorCount = 0 ∧ (t.port p).test.progress = 0 ∧
        (t.port p).test.lastResult = 0 ∧ (t.port p).test.badRun = 0 ∧
        (t.port p).test.running = false ∧ (t.port p).test.genReg = BitVec.allOnes 31 ∧
        (t.port p).test.genPos = 0 ∧ t.cmdQueue = rest) ∧
    (Ready s cmd rest (some .testStop) → P.link = .test →
      ∃ t : State, exec .testStop s = .next (t.responded cmd.src (responseFrame cmd.frame .done [])) ∧
        t.cmdUnit = .ready ∧
        (∃ fs, (t.port cmd.src).elements = (s.port cmd.src).elements ++ fs) ∧
        (t.port p).link = (if P.settings.enable then (if P.faultCause then .faulted else .acquiring)
          else .disabled) ∧
        (t.port p).test = { P.test with running := false, sync := .searching, badRun := 0 } ∧
        (t.port p).settings = P.settings ∧ (t.port p).lastDown = P.lastDown ∧ t.dids = s.dids ∧
        t.cmdQueue = rest) ∧
    (Ready s cmd rest (some .testStop) → P.link ≠ .test →
      exec .testStop s = .next (s.answered cmd rest (responseFrame cmd.frame .done []))) ∧
    (Ready s cmd rest (some .testStart) →
      (4 < (cmd.param 2).toNat ∨ 4 < (cmd.param 3).toNat ∨ 3 < (cmd.param 6).toNat) →
      exec .testStart s = .next (s.answered cmd rest (responseFrame cmd.frame .badValue [])))

/-- TEST-READ and the short form of a count (R188, R189). -/
def Obligations.TestReadAndShortForm : Prop :=
  (∀ n : Nat,
    (n ≤ 507904 → ∃ e, e ≤ 7 ∧ n / 4 ^ e ≤ 31 ∧ (∀ k, k < e → 31 < n / 4 ^ k) ∧
      shortForm n = e * 32 + n / 4 ^ e) ∧
    (507904 < n → shortForm n = 7 * 32 + 31) ∧ shortForm n % 32 * 4 ^ (shortForm n / 32) ≤ n) ∧
  ∀ (s : State) (cmd : CmdCell) (rest : List CmdCell) (p : PortId) (u : PatternUnit),
    Ready s cmd rest (some .testRead) → (cmd.param 1).toNat = p.val → (s.port p).test = u →
    exec .testRead s = .next (s.answered cmd rest (responseFrame cmd.frame .done
      [if u.sync = .inSync then 1 else 0, if u.syncEver then 1 else 0,
       BitVec.ofNat 32 (u.errorCount.toNat / 2 ^ 32), BitVec.ofNat 32 u.errorCount.toNat,
       BitVec.ofNat 32 (u.lastResult.toNat / 2 ^ 32), BitVec.ofNat 32 u.lastResult.toNat,
       BitVec.ofNat 32 (shortForm u.errorCount.toNat), BitVec.ofNat 32 (shortForm u.lastResult.toNat)]))

/-- Which commands can be read, with the words each needs, and which are refused (R16, R160, R144, R145, R168,
R171): one that cannot be read is answered BAD_COMMAND, and so from a port without may-command, any other command
from such a port is answered DENIED, a port above 23, a DID above 31, a group above 511 or a bad cadence length
is BAD_VALUE, and a third report port is IN_USE, both of a PORT-SET that is not refused for LOCKOUT (R161, R164);
nothing else changes. Code, tag and parameter count are bytes 0, 1 and 2 of word 0, and parameter i is word i
(section 1.7). That a bad cadence length is BAD_VALUE also where a third report port is set is read by inference
(log entry 11). -/
def Obligations.RefusedCommandsChangeNothing : Prop :=
  (∀ (x : CmdCell) (c : Code), x.reading = some c ↔
    x.first = true ∧ x.last = true ∧ x.frame.count ≤ 31 ∧
    ∃ needs, needs ≤ x.frame.count ∧ (x.frame.code, c, needs) ∈
      [(0x01, .identify, 0), (0x02, .portSet, 15), (0x03, .portGet, 1), (0x04, .classSet, 12),
       (0x05, .poolSet, 19), (0x06, .lifetimeSet, 1), (0x07, .mapSet, 3), (0x08, .mapMove, 3),
       (0x09, .mapGet, 1), (0x0A, .groupSet, 4), (0x0B, .groupGet, 1), (0x0C, .noticeExpect, 3),
       (0x0D, .noticeRead, 0), (0x0E, .countersRead, 3), (0x0F, .testStart, 9), (0x10, .testStop, 1),
       (0x11, .testRead, 1), (0x12, .linesSet, 2), (0x13, .fabricReset, 0)]) ∧
  (∀ f : Frame, f.code = (f.word 0).extractLsb' 24 8 ∧ f.tag = (f.word 0).extractLsb' 16 8 ∧
    f.count = ((f.word 0).extractLsb' 8 8).toNat ∧ ∀ i : Fin 32, f.word i = f[i]) ∧
  (∀ (x : CmdCell) (i : Fin 32), x.param i = x.frame[i]) ∧
  ∀ (s : State) (cmd : CmdCell) (rest : List CmdCell),
    (Ready s cmd rest none →
      exec .badCommand s = .next (s.answered cmd rest (responseFrame cmd.frame .badCommand []))) ∧
    (s.cmdUnit = .ready → s.cmdQueue = cmd :: rest → cmd.reading = none →
      (s.port cmd.src).settings.mayCommand = false → 1 ≤ (s.port cmd.src).held →
      exec .badCommand s = .next (s.answered cmd rest (responseFrame cmd.frame .badCommand []))) ∧
    (∀ code : Code, s.cmdUnit = .ready → s.cmdQueue = cmd :: rest → cmd.reading = some code →
      (s.port cmd.src).settings.mayCommand = false → 1 ≤ (s.port cmd.src).held →
      exec (instrOf (some code)) s = .next (s.answered cmd rest (responseFrame cmd.frame .denied []))) ∧
    (∀ code : Code, Ready s cmd rest (some code) →
      ((code ∈ [.portSet, .portGet, .noticeExpect, .testStart, .testStop, .testRead] ∧
          23 < (cmd.param 1).toNat) ∨
        (code ∈ [.mapSet, .mapMove, .mapGet] ∧ 31 < (cmd.param 1).toNat) ∨
        (code = .mapSet ∧ cmd.param 2 ≠ 0 ∧ 23 < (cmd.param 3).toNat) ∨
        (code = .mapMove ∧ 23 < (cmd.param 2).toNat) ∨
        (code ∈ [.groupSet, .groupGet] ∧ 511 < (cmd.param 1).toNat)) →
      exec (instrOf (some code)) s = .next (s.answered cmd rest (responseFrame cmd.frame .badValue []))) ∧
    ∀ (p : PortId) (named : Nat → Bool), (∀ i, named i = (cmd.param 2).getLsbD i) →
      Ready s cmd rest (some .portSet) → (cmd.param 1).toNat = p.val →
      (((named 0 && decide (cmd.param 3 = 0)) || (named 10 && decide (cmd.param 14 = 0))) = true →
        (s.port p).link = .up → (s.port p).settings.mayCommand = true →
        ∃ q, q ≠ p ∧ (s.port q).link = .up ∧ (s.port q).settings.mayCommand = true) →
      (named 9 = true → ((cmd.param 12).toNat = 0 ∨ 16 < (cmd.param 12).toNat) →
        exec .portSet s = .next (s.answered cmd rest (responseFrame cmd.frame .badValue []))) ∧
      ((named 9 = true → 1 ≤ (cmd.param 12).toNat ∧ (cmd.param 12).toNat ≤ 16) → named 11 = true → cmd.param 15 ≠ 0 →
        2 ≤ (allPorts.filter fun q => (s.port q).settings.report && !decide (q = p)).length →
        exec .portSet s = .next (s.answered cmd rest (responseFrame cmd.frame .inUse [])))

/-! ### Link tests -/

/-- The bits that complete 64 matches take a checker to IN_SYNC (R185): for USER any number of matching bits up
to the sixty-fourth, for a shift-register pattern the sixty-fourth match after its seed. The first block then
stands at no bit and no error (R186). A mismatch in SEARCHING sets the run to 0, and discards the seed of a
shift-register pattern or leaves the USER position where it is; a bit of the seed is loaded. A checker that is
off takes no bit (R185, R187), and before the first slot of its test none does (R183; the slot is the port's own
next one, by inference, log entry 12). -/
def Obligations.CheckersReachSync : Prop :=
  ∀ (s : State) (p : PortId) (u : PatternUnit), (s.port p).link = .test → (s.port p).test = u →
    (u.running = false ∨ u.settings.chkPattern = .off →
      ∀ bits, ∀ c ∈ [Instr.checkerSync p bits, .testBlockEnd p bits, .timebaseCompletion p bits],
        exec c s = .next s) ∧
    (u.running = true → u.sync = .searching →
    (u.settings.chkPattern = .user → u.chkPos < 64 → u.matchRun < 64 →
      ∃ t, exec (.checkerSync p ((List.range (64 - u.matchRun)).map fun i =>
          xor (u.settings.user.getLsbD ((u.chkPos + i) % 64)) u.settings.chkInvert)) s = .next t ∧
        (t.port p).test.sync = .inSync ∧ (t.port p).test.syncEver = true ∧
        (t.port p).test.badRun = 0 ∧ (t.port p).test.blockBits = 0 ∧ (t.port p).test.blockErrors = 0 ∧
        (t.port p).test.chkPos = (u.chkPos + (64 - u.matchRun)) % 64 ∧
        (t.port p).test.settings = u.settings ∧
        (t.port p).link = .test ∧ t.dids = s.dids) ∧
    (∀ back₁ back₂ length, (u.settings.chkPattern, back₁, back₂, length) ∈
        [(Pattern.p7, 6, 7, 7), (.p23, 18, 23, 23), (.p31, 28, 31, 31)] →
      u.seeded = length → u.matchRun = 63 →
      ∃ t, exec (.checkerSync p
          [xor (xor (u.chkReg.getLsbD (back₁ - 1)) (u.chkReg.getLsbD (back₂ - 1)))
            u.settings.chkInvert]) s = .next t ∧
        (t.port p).test.sync = .inSync ∧ (t.port p).test.syncEver = true ∧
        (t.port p).test.badRun = 0 ∧ (t.port p).test.blockBits = 0 ∧ (t.port p).test.blockErrors = 0 ∧
        (t.port p).test.chkReg.getLsbD 0 =
          xor (u.chkReg.getLsbD (back₁ - 1)) (u.chkReg.getLsbD (back₂ - 1)) ∧
        (∀ i, i < 30 → (t.port p).test.chkReg.getLsbD (i + 1) = u.chkReg.getLsbD i) ∧
        (t.port p).link = .test ∧ t.dids = s.dids) ∧
    ∀ (b raw : Bool), raw = xor b u.settings.chkInvert →
      ∃ t, exec (.checkerSync p [b]) s = .next t ∧ (t.port p).link = .test ∧ t.dids = s.dids ∧
        (u.settings.timebase = .continuous → (t.port p).test.errorCount = u.errorCount) ∧
        (u.settings.chkPattern = .user → raw ≠ u.settings.user.getLsbD u.chkPos →
          (t.port p).test.sync = .searching ∧ (t.port p).test.matchRun = 0 ∧
          (t.port p).test.chkPos = u.chkPos) ∧
        (u.settings.chkPattern = .user → raw = u.settings.user.getLsbD u.chkPos → u.matchRun < 63 →
          (t.port p).test.sync = .searching ∧ (t.port p).test.matchRun = u.matchRun + 1 ∧
          (t.port p).test.chkPos = (u.chkPos + 1) % 64) ∧
        ∀ back₁ back₂ length, (u.settings.chkPattern, back₁, back₂, length) ∈
            [(Pattern.p7, 6, 7, 7), (.p23, 18, 23, 23), (.p31, 28, 31, 31)] →
          ∀ want, want = xor (u.chkReg.getLsbD (back₁ - 1)) (u.chkReg.getLsbD (back₂ - 1)) →
          (u.seeded < length →
            (t.port p).test.sync = .searching ∧ (t.port p).test.seeded = u.seeded + 1 ∧
            (t.port p).test.chkReg.getLsbD 0 = raw ∧
            ∀ i, i < 30 → (t.port p).test.chkReg.getLsbD (i + 1) = u.chkReg.getLsbD i) ∧
          (u.seeded = length → raw ≠ want →
            (t.port p).test.sync = .searching ∧ (t.port p).test.matchRun = 0 ∧
            (t.port p).test.seeded = 0) ∧
          (u.seeded = length → raw = want → u.matchRun < 63 →
            (t.port p).test.sync = .searching ∧ (t.port p).test.matchRun = u.matchRun + 1 ∧
            (t.port p).test.seeded = length ∧ (t.port p).test.chkReg.getLsbD 0 = raw ∧
            ∀ i, i < 30 → (t.port p).test.chkReg.getLsbD (i + 1) = u.chkReg.getLsbD i))

/-- A bit in IN_SYNC (R185, R186). The prediction runs on by itself, from the bits predicted or the USER position.
Within a block the bit and its own error are counted in it, and the end of a block, with the error of its last bit
counted, judges it and starts the next at 0. The recurrences are those of R184. Then the timebase (R187):
the bit that brings the progress to the period copies the error count, that bit's own error included, into
the last result and starts both counts again, and any other bit adds 1. The bad-block run
stays at 4 under sync-mask, by inference (log entry 12). -/
def Obligations.BlocksAndPeriodsEnd : Prop :=
  (∀ (user : BitVec 64) (reg : BitVec 31) (pos : Nat),
    Pattern.user.nextBit user reg pos = user.getLsbD pos ∧
    ∀ (k : Pattern) (back₁ back₂ : Nat),
      (k, back₁, back₂) ∈ [(Pattern.p7, 6, 7), (.p23, 18, 23), (.p31, 28, 31)] →
      k.nextBit user reg pos = xor (reg.getLsbD (back₁ - 1)) (reg.getLsbD (back₂ - 1))) ∧
  (∀ (s : State) (p : PortId) (u : PatternUnit) (b want : Bool) (errors : Nat), (s.port p).link = .test →
    (s.port p).test = u → u.running = true → u.sync = .inSync →
    u.settings.chkPattern ≠ .off → u.blockBits ≤ 127 →
    want = u.settings.chkPattern.nextBit u.settings.user u.chkReg u.chkPos →
    errors = u.blockErrors + (if xor b u.settings.chkInvert = want then 0 else 1) →
    ∃ t, exec (.testBlockEnd p [b]) s = .next t ∧ (t.port p).link = .test ∧ t.dids = s.dids ∧
      (t.port p).test.settings = u.settings ∧ (t.port p).test.syncEver = u.syncEver ∧
      ((t.port p).test.sync = .inSync → (t.port p).test.chkPos = (u.chkPos + 1) % 64 ∧
        (t.port p).test.chkReg.getLsbD 0 = want ∧
        ∀ i, i < 30 → (t.port p).test.chkReg.getLsbD (i + 1) = u.chkReg.getLsbD i) ∧
      (u.blockBits < 127 → (t.port p).test.sync = .inSync ∧ (t.port p).test.badRun = u.badRun ∧
        (t.port p).test.blockBits = u.blockBits + 1 ∧ (t.port p).test.blockErrors = errors) ∧
      (u.blockBits = 127 → (t.port p).test.blockBits = 0 ∧ (t.port p).test.blockErrors = 0 ∧
        (errors ≤ 16 → (t.port p).test.sync = .inSync ∧ (t.port p).test.badRun = 0) ∧
        (16 < errors → u.badRun < 3 →
          (t.port p).test.sync = .inSync ∧ (t.port p).test.badRun = u.badRun + 1) ∧
        (16 < errors → u.badRun = 3 → (u.settings.syncMask && u.syncEver) = false →
          (t.port p).test.sync = .searching ∧ (t.port p).test.badRun = 0 ∧
          (t.port p).test.seeded = 0 ∧ (t.port p).test.matchRun = 0) ∧
        (16 < errors → 3 ≤ u.badRun → (u.settings.syncMask && u.syncEver) = true →
          (t.port p).test.sync = .inSync ∧ (t.port p).test.badRun = 4))) ∧
  ∀ (s : State) (p : PortId) (u : PatternUnit) (b : Bool) (count : BitVec 48), (s.port p).link = .test →
    (s.port p).test = u → u.running = true → u.settings.chkPattern ≠ .off →
    count = (if u.sync = .inSync ∧ xor b u.settings.chkInvert ≠
        u.settings.chkPattern.nextBit u.settings.user u.chkReg u.chkPos ∧
        u.errorCount ≠ BitVec.allOnes 48 then u.errorCount + 1 else u.errorCount) →
    ∃ t, exec (.timebaseCompletion p [b]) s = .next t ∧ (t.port p).link = .test ∧ t.dids = s.dids ∧
      (t.port p).test.settings = u.settings ∧
      (∀ period, (u.settings.timebase, period) ∈
          [(Timebase.bits24, 2 ^ 24), (.bits32, 2 ^ 32), (.bits40, 2 ^ 40)] →
        (u.progress + 1 = period → (t.port p).test.lastResult = count ∧
          (t.port p).test.errorCount = 0 ∧ (t.port p).test.progress = 0) ∧
        (u.progress + 1 < period → (t.port p).test.lastResult = u.lastResult ∧
          (t.port p).test.errorCount = count ∧ (t.port p).test.progress = u.progress + 1)) ∧
      (u.settings.timebase = .continuous → (t.port p).test.lastResult = u.lastResult ∧
        (t.port p).test.errorCount = count)
end

