-- ==== Sys2Proof/Laws/State.lean ====
section
/-! SUPPORT. One lemma per field per update of the state: what writing a port or a destination leaves, and
what is read back. No later proof unfolds a record update. -/

namespace Sys2Proof.Machine

/-! ### Reading a table -/

@[simp] theorem tabMap_get {α β : Type} {n : Nat} (f : Fin n → α → β) (v : Vector α n) (i : Fin n) :
    (tabMap f v)[i] = f i v[i] := by
  simp [tabMap]

/-- A table mapped by functions that leave every entry is unchanged. -/
theorem tabMap_same {α : Type} {n : Nat} (f : Fin n → α → α) (v : Vector α n) (h : ∀ i, f i v[i] = v[i]) :
    tabMap f v = v := by
  ext i hi
  have := h ⟨i, hi⟩
  simpa [tabMap] using this

/-! ### What is read back -/

theorem State.updPort_port (s : State) (p q : PortId) (f : Port → Port) :
    (s.updPort p f).port q = if q = p then f (s.port q) else s.port q := by
  unfold State.updPort State.port
  by_cases h : q = p
  · subst h; simp
  · have : p.val ≠ q.val := fun e => h (Fin.ext e.symm)
    simp [h, this]

@[simp] theorem State.updPort_port_self (s : State) (p : PortId) (f : Port → Port) :
    (s.updPort p f).port p = f (s.port p) := by
  simp [State.updPort_port]

theorem State.updPort_port_ne (s : State) {p q : PortId} (f : Port → Port) (h : q ≠ p) :
    (s.updPort p f).port q = s.port q := by
  simp [State.updPort_port, h]

theorem State.updDid_did (s : State) (d e : Did) (f : DidState → DidState) :
    (s.updDid d f).did e = if e = d then f (s.did e) else s.did e := by
  unfold State.updDid State.did
  by_cases h : e = d
  · subst h; simp
  · have : d.val ≠ e.val := fun x => h (Fin.ext x.symm)
    simp [h, this]

@[simp] theorem State.updDid_did_self (s : State) (d : Did) (f : DidState → DidState) :
    (s.updDid d f).did d = f (s.did d) := by
  simp [State.updDid_did]

theorem State.updDid_did_ne (s : State) {d e : Did} (f : DidState → DidState) (h : e ≠ d) :
    (s.updDid d f).did e = s.did e := by
  simp [State.updDid_did, h]

@[simp] theorem State.mapPorts_port (s : State) (f : PortId → Port → Port) (p : PortId) :
    (s.mapPorts f).port p = f p (s.port p) := by
  simp [State.mapPorts, State.port, tabMap]

@[simp] theorem State.mapDids_did (s : State) (f : Did → DidState → DidState) (d : Did) :
    (s.mapDids f).did d = f d (s.did d) := by
  simp [State.mapDids, State.did, tabMap]

@[simp] theorem State.updDid_port (s : State) (d : Did) (f : DidState → DidState) (p : PortId) :
    (s.updDid d f).port p = s.port p := by simp only [State.updDid, State.port]

@[simp] theorem State.mapDids_port (s : State) (f : Did → DidState → DidState) (p : PortId) :
    (s.mapDids f).port p = s.port p := by simp only [State.mapDids, State.port]

@[simp] theorem State.updPort_did (s : State) (p : PortId) (f : Port → Port) (d : Did) :
    (s.updPort p f).did d = s.did d := by simp only [State.updPort, State.did]

@[simp] theorem State.mapPorts_did (s : State) (f : PortId → Port → Port) (d : Did) :
    (s.mapPorts f).did d = s.did d := by simp only [State.mapPorts, State.did]

/-- Ports mapped by functions that leave every port: the state is unchanged. -/
theorem State.mapPorts_same (s : State) (f : PortId → Port → Port) (h : ∀ p, f p (s.port p) = s.port p) :
    s.mapPorts f = s := by
  unfold State.mapPorts
  rw [tabMap_same f s.ports h]

/-! ### What is left -/

@[simp] theorem State.updPort_dids (s : State) (p : PortId) (f : Port → Port) :
    (s.updPort p f).dids = s.dids := by simp only [State.updPort]
@[simp] theorem State.updPort_classes (s : State) (p : PortId) (f : Port → Port) :
    (s.updPort p f).classes = s.classes := by simp only [State.updPort]
@[simp] theorem State.updPort_lifetime (s : State) (p : PortId) (f : Port → Port) :
    (s.updPort p f).lifetime = s.lifetime := by simp only [State.updPort]
@[simp] theorem State.updPort_markerUse (s : State) (p : PortId) (f : Port → Port) :
    (s.updPort p f).markerUse = s.markerUse := by simp only [State.updPort]
@[simp] theorem State.updPort_owedMarkers (s : State) (p : PortId) (f : Port → Port) :
    (s.updPort p f).owedMarkers = s.owedMarkers := by simp only [State.updPort]
@[simp] theorem State.updPort_groups (s : State) (p : PortId) (f : Port → Port) :
    (s.updPort p f).groups = s.groups := by simp only [State.updPort]
@[simp] theorem State.updPort_poolSize (s : State) (p : PortId) (f : Port → Port) :
    (s.updPort p f).poolSize = s.poolSize := by simp only [State.updPort]
@[simp] theorem State.updPort_poolUse (s : State) (p : PortId) (f : Port → Port) :
    (s.updPort p f).poolUse = s.poolUse := by simp only [State.updPort]
@[simp] theorem State.updPort_mcCells (s : State) (p : PortId) (f : Port → Port) :
    (s.updPort p f).mcCells = s.mcCells := by simp only [State.updPort]
@[simp] theorem State.updPort_mcNext (s : State) (p : PortId) (f : Port → Port) :
    (s.updPort p f).mcNext = s.mcNext := by simp only [State.updPort]
@[simp] theorem State.updPort_holdOn (s : State) (p : PortId) (f : Port → Port) :
    (s.updPort p f).holdOn = s.holdOn := by simp only [State.updPort]
@[simp] theorem State.updPort_holdOff (s : State) (p : PortId) (f : Port → Port) :
    (s.updPort p f).holdOff = s.holdOff := by simp only [State.updPort]
@[simp] theorem State.updPort_mcHold (s : State) (p : PortId) (f : Port → Port) :
    (s.updPort p f).mcHold = s.mcHold := by simp only [State.updPort]
@[simp] theorem State.updPort_elementUse (s : State) (p : PortId) (f : Port → Port) :
    (s.updPort p f).elementUse = s.elementUse := by simp only [State.updPort]
@[simp] theorem State.updPort_cmdQueue (s : State) (p : PortId) (f : Port → Port) :
    (s.updPort p f).cmdQueue = s.cmdQueue := by simp only [State.updPort]
@[simp] theorem State.updPort_cmdUnit (s : State) (p : PortId) (f : Port → Port) :
    (s.updPort p f).cmdUnit = s.cmdUnit := by simp only [State.updPort]
@[simp] theorem State.updPort_cmdLost (s : State) (p : PortId) (f : Port → Port) :
    (s.updPort p f).cmdLost = s.cmdLost := by simp only [State.updPort]
@[simp] theorem State.updPort_status0 (s : State) (p : PortId) (f : Port → Port) :
    (s.updPort p f).status0 = s.status0 := by simp only [State.updPort]
@[simp] theorem State.updPort_status1 (s : State) (p : PortId) (f : Port → Port) :
    (s.updPort p f).status1 = s.status1 := by simp only [State.updPort]
@[simp] theorem State.updPort_plane (s : State) (p : PortId) (f : Port → Port) :
    (s.updPort p f).plane = s.plane := by simp only [State.updPort]
@[simp] theorem State.updPort_now (s : State) (p : PortId) (f : Port → Port) :
    (s.updPort p f).now = s.now := by simp only [State.updPort]
@[simp] theorem State.updPort_pending (s : State) (p : PortId) (f : Port → Port) :
    (s.updPort p f).pending = s.pending := by simp only [State.updPort]

@[simp] theorem State.updDid_ports (s : State) (d : Did) (f : DidState → DidState) :
    (s.updDid d f).ports = s.ports := by simp only [State.updDid]
@[simp] theorem State.updDid_classes (s : State) (d : Did) (f : DidState → DidState) :
    (s.updDid d f).classes = s.classes := by simp only [State.updDid]
@[simp] theorem State.updDid_lifetime (s : State) (d : Did) (f : DidState → DidState) :
    (s.updDid d f).lifetime = s.lifetime := by simp only [State.updDid]
@[simp] theorem State.updDid_markerUse (s : State) (d : Did) (f : DidState → DidState) :
    (s.updDid d f).markerUse = s.markerUse := by simp only [State.updDid]
@[simp] theorem State.updDid_owedMarkers (s : State) (d : Did) (f : DidState → DidState) :
    (s.updDid d f).owedMarkers = s.owedMarkers := by simp only [State.updDid]
@[simp] theorem State.updDid_groups (s : State) (d : Did) (f : DidState → DidState) :
    (s.updDid d f).groups = s.groups := by simp only [State.updDid]
@[simp] theorem State.updDid_poolSize (s : State) (d : Did) (f : DidState → DidState) :
    (s.updDid d f).poolSize = s.poolSize := by simp only [State.updDid]
@[simp] theorem State.updDid_poolUse (s : State) (d : Did) (f : DidState → DidState) :
    (s.updDid d f).poolUse = s.poolUse := by simp only [State.updDid]
@[simp] theorem State.updDid_mcCells (s : State) (d : Did) (f : DidState → DidState) :
    (s.updDid d f).mcCells = s.mcCells := by simp only [State.updDid]
@[simp] theorem State.updDid_mcNext (s : State) (d : Did) (f : DidState → DidState) :
    (s.updDid d f).mcNext = s.mcNext := by simp only [State.updDid]
@[simp] theorem State.updDid_holdOn (s : State) (d : Did) (f : DidState → DidState) :
    (s.updDid d f).holdOn = s.holdOn := by simp only [State.updDid]
@[simp] theorem State.updDid_holdOff (s : State) (d : Did) (f : DidState → DidState) :
    (s.updDid d f).holdOff = s.holdOff := by simp only [State.updDid]
@[simp] theorem State.updDid_mcHold (s : State) (d : Did) (f : DidState → DidState) :
    (s.updDid d f).mcHold = s.mcHold := by simp only [State.updDid]
@[simp] theorem State.updDid_elementUse (s : State) (d : Did) (f : DidState → DidState) :
    (s.updDid d f).elementUse = s.elementUse := by simp only [State.updDid]
@[simp] theorem State.updDid_cmdQueue (s : State) (d : Did) (f : DidState → DidState) :
    (s.updDid d f).cmdQueue = s.cmdQueue := by simp only [State.updDid]
@[simp] theorem State.updDid_cmdUnit (s : State) (d : Did) (f : DidState → DidState) :
    (s.updDid d f).cmdUnit = s.cmdUnit := by simp only [State.updDid]
@[simp] theorem State.updDid_cmdLost (s : State) (d : Did) (f : DidState → DidState) :
    (s.updDid d f).cmdLost = s.cmdLost := by simp only [State.updDid]
@[simp] theorem State.updDid_status0 (s : State) (d : Did) (f : DidState → DidState) :
    (s.updDid d f).status0 = s.status0 := by simp only [State.updDid]
@[simp] theorem State.updDid_status1 (s : State) (d : Did) (f : DidState → DidState) :
    (s.updDid d f).status1 = s.status1 := by simp only [State.updDid]
@[simp] theorem State.updDid_plane (s : State) (d : Did) (f : DidState → DidState) :
    (s.updDid d f).plane = s.plane := by simp only [State.updDid]
@[simp] theorem State.updDid_now (s : State) (d : Did) (f : DidState → DidState) :
    (s.updDid d f).now = s.now := by simp only [State.updDid]
@[simp] theorem State.updDid_pending (s : State) (d : Did) (f : DidState → DidState) :
    (s.updDid d f).pending = s.pending := by simp only [State.updDid]

@[simp] theorem State.mapPorts_dids (s : State) (f : PortId → Port → Port) :
    (s.mapPorts f).dids = s.dids := by simp only [State.mapPorts]
@[simp] theorem State.mapPorts_classes (s : State) (f : PortId → Port → Port) :
    (s.mapPorts f).classes = s.classes := by simp only [State.mapPorts]
@[simp] theorem State.mapPorts_lifetime (s : State) (f : PortId → Port → Port) :
    (s.mapPorts f).lifetime = s.lifetime := by simp only [State.mapPorts]
@[simp] theorem State.mapPorts_markerUse (s : State) (f : PortId → Port → Port) :
    (s.mapPorts f).markerUse = s.markerUse := by simp only [State.mapPorts]
@[simp] theorem State.mapPorts_owedMarkers (s : State) (f : PortId → Port → Port) :
    (s.mapPorts f).owedMarkers = s.owedMarkers := by simp only [State.mapPorts]
@[simp] theorem State.mapPorts_groups (s : State) (f : PortId → Port → Port) :
    (s.mapPorts f).groups = s.groups := by simp only [State.mapPorts]
@[simp] theorem State.mapPorts_poolSize (s : State) (f : PortId → Port → Port) :
    (s.mapPorts f).poolSize = s.poolSize := by simp only [State.mapPorts]
@[simp] theorem State.mapPorts_poolUse (s : State) (f : PortId → Port → Port) :
    (s.mapPorts f).poolUse = s.poolUse := by simp only [State.mapPorts]
@[simp] theorem State.mapPorts_mcCells (s : State) (f : PortId → Port → Port) :
    (s.mapPorts f).mcCells = s.mcCells := by simp only [State.mapPorts]
@[simp] theorem State.mapPorts_mcNext (s : State) (f : PortId → Port → Port) :
    (s.mapPorts f).mcNext = s.mcNext := by simp only [State.mapPorts]
@[simp] theorem State.mapPorts_holdOn (s : State) (f : PortId → Port → Port) :
    (s.mapPorts f).holdOn = s.holdOn := by simp only [State.mapPorts]
@[simp] theorem State.mapPorts_holdOff (s : State) (f : PortId → Port → Port) :
    (s.mapPorts f).holdOff = s.holdOff := by simp only [State.mapPorts]
@[simp] theorem State.mapPorts_mcHold (s : State) (f : PortId → Port → Port) :
    (s.mapPorts f).mcHold = s.mcHold := by simp only [State.mapPorts]
@[simp] theorem State.mapPorts_elementUse (s : State) (f : PortId → Port → Port) :
    (s.mapPorts f).elementUse = s.elementUse := by simp only [State.mapPorts]
@[simp] theorem State.mapPorts_cmdQueue (s : State) (f : PortId → Port → Port) :
    (s.mapPorts f).cmdQueue = s.cmdQueue := by simp only [State.mapPorts]
@[simp] theorem State.mapPorts_cmdUnit (s : State) (f : PortId → Port → Port) :
    (s.mapPorts f).cmdUnit = s.cmdUnit := by simp only [State.mapPorts]
@[simp] theorem State.mapPorts_cmdLost (s : State) (f : PortId → Port → Port) :
    (s.mapPorts f).cmdLost = s.cmdLost := by simp only [State.mapPorts]
@[simp] theorem State.mapPorts_status0 (s : State) (f : PortId → Port → Port) :
    (s.mapPorts f).status0 = s.status0 := by simp only [State.mapPorts]
@[simp] theorem State.mapPorts_status1 (s : State) (f : PortId → Port → Port) :
    (s.mapPorts f).status1 = s.status1 := by simp only [State.mapPorts]
@[simp] theorem State.mapPorts_plane (s : State) (f : PortId → Port → Port) :
    (s.mapPorts f).plane = s.plane := by simp only [State.mapPorts]
@[simp] theorem State.mapPorts_now (s : State) (f : PortId → Port → Port) :
    (s.mapPorts f).now = s.now := by simp only [State.mapPorts]
@[simp] theorem State.mapPorts_pending (s : State) (f : PortId → Port → Port) :
    (s.mapPorts f).pending = s.pending := by simp only [State.mapPorts]

@[simp] theorem State.mapDids_ports (s : State) (f : Did → DidState → DidState) :
    (s.mapDids f).ports = s.ports := by simp only [State.mapDids]
@[simp] theorem State.mapDids_classes (s : State) (f : Did → DidState → DidState) :
    (s.mapDids f).classes = s.classes := by simp only [State.mapDids]
@[simp] theorem State.mapDids_lifetime (s : State) (f : Did → DidState → DidState) :
    (s.mapDids f).lifetime = s.lifetime := by simp only [State.mapDids]
@[simp] theorem State.mapDids_markerUse (s : State) (f : Did → DidState → DidState) :
    (s.mapDids f).markerUse = s.markerUse := by simp only [State.mapDids]
@[simp] theorem State.mapDids_owedMarkers (s : State) (f : Did → DidState → DidState) :
    (s.mapDids f).owedMarkers = s.owedMarkers := by simp only [State.mapDids]
@[simp] theorem State.mapDids_groups (s : State) (f : Did → DidState → DidState) :
    (s.mapDids f).groups = s.groups := by simp only [State.mapDids]
@[simp] theorem State.mapDids_poolSize (s : State) (f : Did → DidState → DidState) :
    (s.mapDids f).poolSize = s.poolSize := by simp only [State.mapDids]
@[simp] theorem State.mapDids_poolUse (s : State) (f : Did → DidState → DidState) :
    (s.mapDids f).poolUse = s.poolUse := by simp only [State.mapDids]
@[simp] theorem State.mapDids_mcCells (s : State) (f : Did → DidState → DidState) :
    (s.mapDids f).mcCells = s.mcCells := by simp only [State.mapDids]
@[simp] theorem State.mapDids_mcNext (s : State) (f : Did → DidState → DidState) :
    (s.mapDids f).mcNext = s.mcNext := by simp only [State.mapDids]
@[simp] theorem State.mapDids_holdOn (s : State) (f : Did → DidState → DidState) :
    (s.mapDids f).holdOn = s.holdOn := by simp only [State.mapDids]
@[simp] theorem State.mapDids_holdOff (s : State) (f : Did → DidState → DidState) :
    (s.mapDids f).holdOff = s.holdOff := by simp only [State.mapDids]
@[simp] theorem State.mapDids_mcHold (s : State) (f : Did → DidState → DidState) :
    (s.mapDids f).mcHold = s.mcHold := by simp only [State.mapDids]
@[simp] theorem State.mapDids_elementUse (s : State) (f : Did → DidState → DidState) :
    (s.mapDids f).elementUse = s.elementUse := by simp only [State.mapDids]
@[simp] theorem State.mapDids_cmdQueue (s : State) (f : Did → DidState → DidState) :
    (s.mapDids f).cmdQueue = s.cmdQueue := by simp only [State.mapDids]
@[simp] theorem State.mapDids_cmdUnit (s : State) (f : Did → DidState → DidState) :
    (s.mapDids f).cmdUnit = s.cmdUnit := by simp only [State.mapDids]
@[simp] theorem State.mapDids_cmdLost (s : State) (f : Did → DidState → DidState) :
    (s.mapDids f).cmdLost = s.cmdLost := by simp only [State.mapDids]
@[simp] theorem State.mapDids_status0 (s : State) (f : Did → DidState → DidState) :
    (s.mapDids f).status0 = s.status0 := by simp only [State.mapDids]
@[simp] theorem State.mapDids_status1 (s : State) (f : Did → DidState → DidState) :
    (s.mapDids f).status1 = s.status1 := by simp only [State.mapDids]
@[simp] theorem State.mapDids_plane (s : State) (f : Did → DidState → DidState) :
    (s.mapDids f).plane = s.plane := by simp only [State.mapDids]
@[simp] theorem State.mapDids_now (s : State) (f : Did → DidState → DidState) :
    (s.mapDids f).now = s.now := by simp only [State.mapDids]
@[simp] theorem State.mapDids_pending (s : State) (f : Did → DidState → DidState) :
    (s.mapDids f).pending = s.pending := by simp only [State.mapDids]

/-! ### Small tables -/

@[simp] theorem PerG.get_set_self {α : Type} (t : PerG α) (c : GClass) (x : α) : (t.set c x).get c = x := by
  cases c <;> rfl

theorem PerG.get_set_ne {α : Type} (t : PerG α) {c c' : GClass} (x : α) (h : c' ≠ c) :
    (t.set c x).get c' = t.get c' := by
  cases c <;> cases c' <;> first | rfl | exact absurd rfl h

@[simp] theorem PerG.get_const {α : Type} (x : α) (c : GClass) : (PerG.const x).get c = x := by
  cases c <;> rfl

@[simp] theorem PerG.get_map {α β : Type} (f : GClass → α → β) (t : PerG α) (c : GClass) :
    (t.map f).get c = f c (t.get c) := by
  cases c <;> rfl

@[simp] theorem PerClass.get_set_self {α : Type} (t : PerClass α) (c : Cls) (x : α) :
    (t.set c x).get c = x := by
  cases c <;> rfl

theorem PerClass.get_set_ne {α : Type} (t : PerClass α) {c c' : Cls} (x : α) (h : c' ≠ c) :
    (t.set c x).get c' = t.get c' := by
  cases c <;> cases c' <;> first | rfl | exact absurd rfl h

@[simp] theorem PerClass.get_const {α : Type} (x : α) (c : Cls) : (PerClass.const x).get c = x := by
  cases c <;> rfl

@[simp] theorem PerClass.get_map {α β : Type} (f : Cls → α → β) (t : PerClass α) (c : Cls) :
    (t.map f).get c = f c (t.get c) := by
  cases c <;> rfl

@[simp] theorem GClass.granted_cls (c : GClass) : c.cls.granted? = some c := by
  cases c <;> rfl

end Sys2Proof.Machine
end

