-- ==== Sys2Proof/Laws/Ops.lean ====
section
/-! SUPPORT. One lemma for each shared operation, saying once everything it can do: refusals, markers,
credits, records, element cells, notices, link entries, the command unit and the step. Later proofs cite
these and do not unfold the operations. -/

namespace Sys2Proof.Machine

/-! ### Refusals and markers -/

/-- A refusal leaves the state, is counted lost, or is appended (R69). -/
theorem State.refuse_cases (s : State) (p : PortId) (r : RefusalEntry) :
    ((s.isUp p = false ∨ r ∈ (s.port p).refusalOutbox) ∧ s.refuse p r = s) ∨
    (s.isUp p = true ∧ r ∉ (s.port p).refusalOutbox ∧ 4 ≤ (s.port p).refusalOutbox.length ∧
      s.refuse p r = s.countPort p .incRefusalLost) ∨
    (s.isUp p = true ∧ r ∉ (s.port p).refusalOutbox ∧ (s.port p).refusalOutbox.length < 4 ∧
      s.refuse p r = s.updPort p fun P => { P with refusalOutbox := P.refusalOutbox ++ [r] }) := by
  unfold State.refuse
  by_cases hu : s.isUp p = true
  · by_cases hm : r ∈ (s.port p).refusalOutbox
    · simp [hu, hm]
    · by_cases hl : 4 ≤ (s.port p).refusalOutbox.length
      · have : ¬ (s.port p).refusalOutbox.length < 4 := by omega
        simp [hu, hm, hl, this, Config.refusalOutboxSize]
      · have hl' : (s.port p).refusalOutbox.length < 4 := by omega
        simp [hu, hm, hl, hl', Config.refusalOutboxSize]
  · simp [hu]

/-- A marker is placed, is owed already, or comes to be owed (R100, R101). -/
theorem State.makeMark_cases (s : State) (k : MarkerKey) :
    (s.markerUse < 64 ∧ s.makeMark k = s.placeMark k) ∨
    (64 ≤ s.markerUse ∧ k ∈ s.owedMarkers ∧ s.makeMark k = s) ∨
    (64 ≤ s.markerUse ∧ k ∉ s.owedMarkers ∧
      s.makeMark k = { s with owedMarkers := s.owedMarkers ++ [k] }) := by
  unfold State.makeMark
  by_cases h : s.markerUse < 64
  · simp [h, Config.markerReserve]
  · have h' : 64 ≤ s.markerUse := by omega
    by_cases hm : k ∈ s.owedMarkers <;> simp [h', hm, Config.markerReserve]

/-- The keys a port-down owes are those of the ended trains, in the order of R104. -/
theorem State.sourceDownKeys_ended (s : State) (p : PortId) : s.EndedTrains p (s.sourceDownKeys p) := by
  constructor
  · rintro ⟨src, d, c, mc⟩
    cases c <;> cases mc <;> simp [State.sourceDownKeys, allDids, Cls.all, Cls.granted?]
    case c0.true =>
      intro _ _ g h
      cases g <;> cases h
    case c1.true | c2.true | c3.true =>
      constructor
      · rintro ⟨hm, h, rfl⟩
        exact ⟨rfl, hm, _, rfl, h⟩
      · rintro ⟨rfl, hm, g, hg, h⟩
        cases g <;> cases hg
        exact ⟨hm, h, rfl⟩
    all_goals tauto
  · refine List.pairwise_flatMap.2 ⟨fun d _ => List.pairwise_flatMap.2 ⟨fun c _ => ?_, ?_⟩, ?_⟩
    · cases c <;> simp only [Cls.granted?] <;> split_ifs <;> simp
    · refine List.Pairwise.imp (R := fun a b : Cls => a.code < b.code)
        (fun {a b} h x hx y hy => ?_) (by decide)
      have hxa : x.did = d ∧ x.cls = a := by cases a <;> simp [Cls.granted?] at hx <;> grind
      have hyb : y.did = d ∧ y.cls = b := by cases b <;> simp [Cls.granted?] at hy <;> grind
      exact .inr ⟨hxa.1.trans hyb.1.symm, .inl (by rw [hxa.2, hyb.2]; exact h)⟩
    · refine List.Pairwise.imp (fun {a b} h x hx y hy => ?_) ((List.pairwise_lt_finRange 32).filter _)
      have hxa : x.did = a := by simp [Cls.all, Cls.granted?] at hx; grind
      have hyb : y.did = b := by simp [Cls.all, Cls.granted?] at hy; grind
      exact .inl (by rw [hxa, hyb]; exact h)

/-- The service of the list: nothing while no store is free, an empty list while no entry can be served,
or the oldest servable entry placed and those ahead of it discarded (R102). -/
theorem State.serveOwed_cases (s : State) :
    (64 ≤ s.markerUse ∧ s.serveOwed = s) ∨
    (s.markerUse < 64 ∧ s.owedServable = [] ∧ s.serveOwed = { s with owedMarkers := [] }) ∨
    (s.markerUse < 64 ∧ ∃ k rest, s.owedServable = k :: rest ∧
      s.serveOwed = { s with owedMarkers := rest }.placeMark k) := by
  unfold State.serveOwed
  by_cases h : s.markerUse < 64
  · cases hk : s.owedServable <;> simp [h, Config.markerReserve]
  · have h' : 64 ≤ s.markerUse := by omega
    exact .inl ⟨h', if_neg h⟩

/-- A returned marker store: the marker use falls by one, and then the store serves the list (R47, R102). -/
theorem State.returnMark_cases (s : State) :
    (64 ≤ s.markerUse - 1 ∧ s.returnMark = { s with markerUse := s.markerUse - 1 }) ∨
    (s.markerUse - 1 < 64 ∧ s.owedServable = [] ∧
      s.returnMark = { s with markerUse := s.markerUse - 1, owedMarkers := [] }) ∨
    (s.markerUse - 1 < 64 ∧ ∃ k rest, s.owedServable = k :: rest ∧
      s.returnMark = { s with markerUse := s.markerUse - 1, owedMarkers := rest }.placeMark k) := by
  obtain ⟨h, e⟩ | ⟨h, l, e⟩ | ⟨h, k, rest, l, e⟩ :=
    State.serveOwed_cases { s with markerUse := s.markerUse - 1 }
  · exact .inl ⟨h, e⟩
  · exact .inr (.inl ⟨h, l, e⟩)
  · exact .inr (.inr ⟨h, k, rest, l, e⟩)

/-! ### Usage -/

/-- The floor use and the excess of a DID make up its usage (R50). -/
theorem State.floorUse_add_excess (s : State) (d : Did) : (s.did d).floorUse + s.excess d = (s.did d).used := by
  unfold DidState.floorUse State.excess DidState.excessOver
  omega

/-! ### Credits -/

theorem State.creditOk_iff (s : State) (p : PortId) :
    s.creditOk p = true ↔ (s.port p).held + (s.port p).owed < 8 := by
  unfold State.creditOk
  rw [decide_eq_true_iff]
  rfl

/-- What the return of a credit leaves at every port (R99). -/
theorem State.refundCredit_port (s : State) (p q : PortId) :
    (s.refundCredit p).port q =
      if q = p ∧ s.creditOk p = true ∧ s.isUp p = true
      then { s.port q with owed := (s.port q).owed + 1 } else s.port q := by
  unfold State.refundCredit
  by_cases h : s.creditOk p = true ∧ s.isUp p = true
  · simp [h, State.updPort_port]
  · have h' : (s.creditOk p && s.isUp p) = false := by
      cases ha : s.creditOk p <;> cases hb : s.isUp p <;> simp_all
    simp only [h', Bool.false_eq_true, if_false]
    rw [if_neg (fun x => h x.2)]

/-- What the release of a held cell leaves at every port (R155). -/
theorem State.releaseCredit_port (s : State) (p q : PortId) :
    (s.releaseCredit p).port q =
      if q = p ∧ (s.port p).held ≠ 0
      then { s.port q with
        held := (s.port q).held - 1,
        owed := if (s.port q).link = .up then (s.port q).owed + 1 else (s.port q).owed }
      else s.port q := by
  unfold State.releaseCredit
  rw [State.updPort_port]
  by_cases h : q = p
  · subst h
    by_cases hz : (s.port q).held = 0 <;> simp [hz]
  · simp [h]

/-! ### Records -/

/-- Closing a record: nothing where none is open; otherwise its remaining count is returned, the record is
gone and its unsent entry is withdrawn (R59, R71, R79). -/
theorem State.closeGrant_cases (s : State) (p : PortId) (d : Did) (c : GClass) :
    (s.grant p d c = none ∧ s.closeGrant p d c = s) ∨
    (∃ g, s.grant p d c = some g ∧
      s.closeGrant p d c = (((s.updUsage d c (Usage.unreserve g.remaining)).setGrant p d c none).updOutbox p
        (outboxWithout d c))) := by
  unfold State.closeGrant
  cases h : s.grant p d c with
  | none => exact .inl ⟨rfl, rfl⟩
  | some g => exact .inr ⟨g, rfl, rfl⟩

/-- An arbiter judged once: nothing, or one grant to the first entry that qualifies (R73 to R76). -/
theorem State.arbitrate_cases (s : State) (d : Did) (c : GClass) :
    (s.candidate d c = none ∧ s.arbitrate d c = s) ∨
    (∃ e, s.candidate d c = some e ∧ s.arbitrate d c = s.issueGrant d c e (s.quota d c e)) := by
  unfold State.arbitrate
  cases h : s.candidate d c with
  | none => exact .inl ⟨rfl, rfl⟩
  | some e => exact .inr ⟨e, rfl, rfl⟩

/-- What a candidate says: the DID is MAPPED to a port that is UP, the allowance is 1 or more, and the
entry is the first of its queue that qualifies (R73, R74). -/
theorem State.candidate_spec {s : State} {d : Did} {c : GClass} {e : BidEntry}
    (h : s.candidate d c = some e) :
    s.issuable d = true ∧ 1 ≤ s.allowance d c ∧ e ∈ s.bids d c ∧ 1 ≤ s.need d c e ∧
      s.outboxTakes e.src d c = true := by
  unfold State.candidate at h
  split at h
  case isFalse => cases h
  case isTrue hc =>
    have hq := List.find?_some h
    have hm := List.mem_of_find?_eq_some h
    simp only [State.qualifies, Bool.and_eq_true, decide_eq_true_eq] at hq hc
    exact ⟨hc.1, hc.2, hm, hq.1, hq.2⟩

/-! ### Element cells and commands -/

/-- The offer of a response: discarded, placed, or held (R157, R159). -/
theorem State.offerResponse_cases (s : State) (p : PortId) (f : Frame) :
    (s.isUp p = false ∧ s.offerResponse p f = s) ∨
    (s.isUp p = true ∧ s.elementUse < 32 ∧ s.offerResponse p f = s.placeElement p f) ∨
    (s.isUp p = true ∧ 32 ≤ s.elementUse ∧ s.offerResponse p f = { s with cmdUnit := .holding p f }) := by
  unfold State.offerResponse
  by_cases hu : s.isUp p = true
  · by_cases hr : s.elementUse < 32
    · simp [hu, hr, Config.elementAllowance]
    · have : 32 ≤ s.elementUse := by omega
      simp [hu, hr, this, Config.elementAllowance]
  · simp [hu]

/-- The offer of a notice: placed, or discarded (R157, R177). -/
theorem State.offerNotice_cases (s : State) (p : PortId) (f : Frame) :
    (s.isUp p = true ∧ s.elementUse < 32 ∧ s.offerNotice p f = s.placeElement p f) ∨
    ((s.isUp p = false ∨ 32 ≤ s.elementUse) ∧ s.offerNotice p f = s) := by
  unfold State.offerNotice
  by_cases hu : s.isUp p = true
  · by_cases hr : s.elementUse < 32
    · simp [hu, hr, Config.elementAllowance]
    · have : 32 ≤ s.elementUse := by omega
      simp [hu, hr, this, Config.elementAllowance]
  · simp [hu]

/-- The fall of the allowance use by nothing is no fall, and by one or more it offers the held response again
(R157, R159). -/
theorem State.freeElements_zero (s : State) : s.freeElements 0 = s := rfl

theorem State.freeElements_pos (s : State) {n : Nat} (h : 0 < n) :
    s.freeElements n = { s with elementUse := s.elementUse - n }.offerHeld := by
  unfold State.freeElements
  rw [if_neg (by omega)]

/-- A step of the command unit: the head of the queue is taken, judged and answered, or nothing happens
(R159). -/
theorem commandStep_cases (want : Option Code) (judge : CmdCell → State → Reply) (s : State) :
    (commandStep want judge s = s) ∨
    (∃ cmd rest, s.cmdUnit = .ready ∧ s.cmdQueue = cmd :: rest ∧ cmd.reading = want ∧
      commandStep want judge s =
        (judge cmd (s.takeCommand cmd rest)).state.offerResponse cmd.src
          (responseFrame cmd.frame (judge cmd (s.takeCommand cmd rest)).status
            (judge cmd (s.takeCommand cmd rest)).results)) := by
  unfold commandStep
  split
  case h_1 cmd rest hu hq =>
    by_cases hr : cmd.reading = want
    · rw [if_pos hr]
      exact .inr ⟨cmd, rest, hu, hq, hr, rfl⟩
    · rw [if_neg hr]
      exact .inl rfl
  case h_2 => exact .inl rfl

/-- A step of the command unit at a command that is ready. -/
theorem commandStep_ready {s : State} {cmd : CmdCell} {rest : List CmdCell} {code : Option Code}
    (h : Ready s cmd rest code) (judge : CmdCell → State → Reply) :
    commandStep code judge s =
      (judge cmd (s.takeCommand cmd rest)).state.offerResponse cmd.src
        (responseFrame cmd.frame (judge cmd (s.takeCommand cmd rest)).status
          (judge cmd (s.takeCommand cmd rest)).results) := by
  unfold commandStep
  rw [h.unit, h.queue]
  simp only [h.reading, if_true]

/-- The offer of a response is what the statements call responded (R157, R159). -/
theorem State.offerResponse_eq (s : State) (p : PortId) (f : Frame) :
    s.offerResponse p f = s.responded p f := by
  unfold State.offerResponse State.responded State.isUp
  by_cases h : (s.port p).link = .up
  · rw [if_neg (not_not_intro h), decide_eq_true h]
    rfl
  · rw [if_pos h, decide_eq_false h]
    rfl

/-- The command of a ready state taken: one unit leaves h, and the queue loses its head (R155, R159). -/
theorem State.takeCommand_ready {s : State} {cmd : CmdCell} {rest : List CmdCell} {code : Option Code}
    (h : Ready s cmd rest code) : s.takeCommand cmd rest = s.taken cmd rest := by
  have hh : (s.ports[cmd.src]).held ≠ 0 := by have := h.held; unfold State.port at this; omega
  unfold State.takeCommand State.releaseCredit State.updPort State.taken Port.credited
  simp only [hh, if_false]
  rfl

/-- A command of a ready state is judged: its source has may-command set (R160). -/
theorem judgeCommand_ready {s : State} {cmd : CmdCell} {rest : List CmdCell} {code : Option Code}
    (h : Ready s cmd rest code) (judge : CmdCell → State → Reply) :
    judgeCommand cmd judge (s.takeCommand cmd rest) = judge cmd (s.takeCommand cmd rest) := by
  have hm : ((s.takeCommand cmd rest).port cmd.src).settings.mayCommand = true := by
    rw [State.takeCommand_ready h]
    simpa [State.port, State.taken, Port.credited] using h.may
  unfold judgeCommand
  rw [if_pos hm]

/-- A command of a ready state taken and answered, with nothing else changed (R155, R157, R159). -/
theorem State.offerResponse_ready {s : State} {cmd : CmdCell} {rest : List CmdCell} {code : Option Code}
    (h : Ready s cmd rest code) (f : Frame) :
    (s.takeCommand cmd rest).offerResponse cmd.src f = s.answered cmd rest f := by
  rw [State.offerResponse_eq, State.takeCommand_ready h]
  rfl

/-- While the unit holds a response it takes no command (R159). -/
theorem commandStep_holding {s : State} {p : PortId} {f : Frame} (h : s.cmdUnit = .holding p f)
    (want : Option Code) (judge : CmdCell → State → Reply) : commandStep want judge s = s := by
  unfold commandStep
  rw [h]

/-! ### Notices -/

/-- The notice unit after an event that changes no watched condition and sets no flag: nothing (R174,
R177). -/
theorem noticeStep_quiet (s t : State)
    (hc : ∀ p, (t.port p).conditions = (s.port p).conditions)
    (hp : t.noticePending = true → s.noticePending = true) : noticeStep s t = t := by
  have h1 : (t.mapPorts fun p P => P.judgeNotice (s.port p).conditions) = t := by
    apply State.mapPorts_same
    intro p
    unfold Port.judgeNotice
    rw [if_pos (hc p)]
  unfold noticeStep
  simp only [h1]
  cases ht : t.noticePending
  · simp
  · simp [hp ht]

/-- The port that offering notices leaves: its element list alone may have grown (R177). -/
theorem State.offerNotices_port (s : State) (q : PortId) :
    ∃ fs, (s.offerNotices).port q = { s.port q with elements := (s.port q).elements ++ fs } := by
  unfold State.offerNotices
  generalize noticeFrame s.noticeWord s.moveDoneWord = f
  generalize s.reportPorts = ps
  induction ps generalizing s with
  | nil => exact ⟨[], by simp⟩
  | cons p ps ih =>
    simp only [List.foldl_cons]
    obtain ⟨fs, h⟩ := ih (s.offerNotice p f)
    rw [h]
    obtain ⟨-, -, e⟩ | ⟨-, e⟩ := s.offerNotice_cases p f
    · rw [e]
      unfold State.placeElement
      by_cases hq : q = p
      · subst hq
        exact ⟨f :: fs, by simp [State.port, State.updPort]⟩
      · have hv : p.val ≠ q.val := fun x => hq (Fin.ext x.symm)
        exact ⟨fs, by simp [State.port, State.updPort, hv]⟩
    · rw [e]
      exact ⟨fs, rfl⟩

/-! ### The end of an event -/

/-- The judgement of a DID: it cuts over DRAINED where it is MOVING and drained, and otherwise nothing (R148). -/
theorem State.judgeDrain_cases (s : State) (d : Did) :
    (∃ port target time code, (s.did d).map = .moving port target time code ∧ s.drained d = true ∧
      s.judgeDrain d = s.cutover d target .drained) ∨
    (((s.did d).map.isMoving = false ∨ s.drained d = false) ∧ s.judgeDrain d = s) := by
  unfold State.judgeDrain
  cases hm : (s.did d).map with
  | moving port target time code =>
    cases hd : s.drained d
    · exact .inr ⟨.inr rfl, rfl⟩
    · exact .inl ⟨port, target, time, code, rfl, rfl, rfl⟩
  | _ => exact .inr ⟨.inl rfl, rfl⟩

/-- The drain conditions after an event that drained no MOVING DID: nothing (R148). -/
theorem State.drainStep_quiet (s t : State)
    (h : ∀ d, (t.did d).map.isMoving = true → t.drained d = true → s.drained d = true) :
    s.drainStep t = t := by
  unfold State.drainStep
  have : ∀ ds : List Did, (∀ d ∈ ds, s.drained d = false) → ds.foldl State.judgeDrain t = t := by
    intro ds
    induction ds with
    | nil => exact fun _ => rfl
    | cons d ds ih =>
      intro hs
      have hd : t.judgeDrain d = t := by
        obtain ⟨_, _, _, _, hm, hq, -⟩ | ⟨-, e⟩ := t.judgeDrain_cases d
        · have := h d (by rw [hm]; rfl) hq
          rw [hs d (by simp)] at this
          cases this
        · exact e
      rw [List.foldl_cons, hd]
      exact ih fun e he => hs e (by simp [he])
  apply this
  intro d hd
  have := (List.mem_filter.mp hd).2
  simp only [Bool.and_eq_true, Bool.not_eq_true'] at this
  exact this.2

/-- The end of an event that drained no MOVING DID is its notices (R148, R174). -/
theorem eventEnd_quiet (s t : State)
    (h : ∀ d, (t.did d).map.isMoving = true → t.drained d = true → s.drained d = true) :
    eventEnd s t = noticeStep s t := by
  unfold eventEnd
  rw [State.drainStep_quiet s t h]

/-- An event that left the state as it was ends with nothing. -/
theorem eventEnd_self (s : State) : eventEnd s s = s := by
  rw [eventEnd_quiet s s fun _ _ h => h]
  exact noticeStep_quiet s s (fun _ => rfl) fun h => h

/-- The bids of a header one by one, each an event of its own (R5, R65). -/
@[simp] theorem State.takeBids_nil (s : State) (p : PortId) : s.takeBids p [] = s := rfl

theorem State.takeBids_cons (s : State) (p : PortId) (b : BidSlot) (bs : List BidSlot) :
    s.takeBids p (b :: bs) = (eventEnd s (s.takeBid p b)).takeBids p bs := rfl

/-! ### Link entries -/

/-- A port that leaves for another state: from UP with the share of every block, otherwise alone (R25). -/
theorem State.leaveFor_cases (s : State) (p : PortId) (entry : Port → Port) (why : DownCause) :
    (s.isUp p = true ∧
      s.leaveFor p entry why = (s.updPort p fun P => { entry P with lastDown := why }).blocksDown p) ∨
    (s.isUp p = false ∧ s.leaveFor p entry why = s.updPort p entry) := by
  unfold State.leaveFor
  cases h : s.isUp p <;> simp

/-- The judgement of the fault causes: FAULTED where one came to stand, ACQUIRING where none is left, and
otherwise nothing (R35, R36). -/
theorem State.judgeFault_cases (s : State) (p : PortId) :
    (((s.port p).link = .acquiring ∨ (s.port p).link = .waiting ∨ (s.port p).link = .up) ∧
      (s.port p).faultCause = true ∧ s.judgeFault p = s.leaveFor p Port.enterFaulted .fault) ∨
    ((s.port p).link = .faulted ∧ (s.port p).faultCause = false ∧
      s.judgeFault p = s.leaveFor p Port.enterAcquiring .fault) ∨
    s.judgeFault p = s := by
  unfold State.judgeFault
  cases hl : (s.port p).link <;> cases hf : (s.port p).faultCause <;> simp [hl, hf]

/-! ### The step -/

/-- What a step is: the front command, the step that is due, or a microsecond. -/
theorem step_cases (s : State) :
    (∃ c rest, s.pending = c :: rest ∧ step s = exec c { s with pending := rest }) ∨
    (s.pending = [] ∧ ∃ c, s.due = some c ∧ step s = exec c s) ∨
    (s.pending = [] ∧ s.due = none ∧ step s = .next s.tick) := by
  unfold step
  cases hp : s.pending with
  | cons c rest => exact .inl ⟨c, rest, rfl, rfl⟩
  | nil =>
    cases hd : s.due with
    | some c => exact .inr (.inl ⟨rfl, c, rfl, rfl⟩)
    | none => exact .inr (.inr ⟨rfl, rfl, rfl⟩)

end Sys2Proof.Machine
end

