-- ==== Sys2Proof/WellFormed.lean ====
section
/-! DEFINITION. What makes a command well formed. Ports, DIDs, classes, straps and quality figures are in
range by their types. A row that a run of received bits brings about names at least one bit, and a block
end names no more bits than a block holds. -/

namespace Sys2Proof

/-- The check on a run of received bits: at least one, and at most `most` where a block bounds it. -/
def bitsWellFormed (most : Option Nat) (bits : List Bool) : Bool :=
  !bits.isEmpty && match most with
    | none => true
    | some n => decide (bits.length ≤ n)

/-- The command is well formed. -/
def Instr.wellFormed : Instr → Bool
  | .stuckLineAssert _ bits => bitsWellFormed none bits
  | .stuckBlockEnd _ bits => bitsWellFormed (some Config.stuckBlockBits) bits
  | .checkerSync _ bits => bitsWellFormed none bits
  | .testBlockEnd _ bits => bitsWellFormed (some Config.testBlockBits) bits
  | .timebaseCompletion _ bits => bitsWellFormed none bits
  | .deviceReset _ | .ingressCell _ _ | .slip _ _ | .qualityCompletion _ _ | .slot _ => true
  | .grantIssue _ _ | .grantExpiry _ _ _ | .owedMarkerService | .drainedCutover _ => true
  | .moveDeadline _ | .heldResponseOffer | .identify | .portSet | .portGet | .classSet => true
  | .poolSet | .lifetimeSet | .mapSet | .mapMove | .mapGet | .groupSet | .groupGet => true
  | .noticeExpect | .noticeRead | .countersRead | .testStart | .testStop | .testRead => true
  | .linesSet | .fabricReset | .badCommand => true

end Sys2Proof
end

