-- ==== Sys2Proof/Laws/PerInstr.lean ====
section
/-! SUPPORT. The per-command family WellFormedBits: a well-formed command that carries a run of received
bits names at least one bit, and a block end no more bits than its block holds. One lemma per command. -/

namespace Sys2Proof.Laws

/-- The run of received bits a command carries, with the most a block lets it name. -/
def runOf : Instr → Option (List Bool × Option Nat)
  | .stuckLineAssert _ bits => some (bits, none)
  | .stuckBlockEnd _ bits => some (bits, some 1024)
  | .checkerSync _ bits => some (bits, none)
  | .testBlockEnd _ bits => some (bits, some 128)
  | .timebaseCompletion _ bits => some (bits, none)
  | _ => none

/-- A well-formed command names at least one bit of a run it carries, and no more than its block holds. -/
def WellFormedBits.Statement (i : Instr) : Prop :=
  i.wellFormed = true → ∀ bits most, runOf i = some (bits, most) →
    bits ≠ [] ∧ ∀ n, most = some n → bits.length ≤ n

/-- A command that carries no run. -/
theorem WellFormedBits.of_none {i : Instr} (h : runOf i = none) : WellFormedBits.Statement i := by
  intro _ bits most hr
  rw [h] at hr
  cases hr

/-- A command that carries a run its well-formedness checks. -/
theorem WellFormedBits.of_run {i : Instr} {b : List Bool} {m : Option Nat} (h : runOf i = some (b, m))
    (hw : i.wellFormed = bitsWellFormed m b) : WellFormedBits.Statement i := by
  intro hi bits most hr
  rw [h] at hr
  cases hr
  rw [hw] at hi
  simp only [bitsWellFormed, Bool.and_eq_true, Bool.not_eq_true', List.isEmpty_eq_false_iff] at hi
  refine ⟨hi.1, fun n hn => ?_⟩
  subst hn
  simpa using hi.2

theorem WellFormedBits.deviceReset (straps : BitVec 3) :
    WellFormedBits.Statement (.deviceReset straps) := WellFormedBits.of_none rfl

theorem WellFormedBits.ingressCell (port : PortId) (cell : RawCell) :
    WellFormedBits.Statement (.ingressCell port cell) := WellFormedBits.of_none rfl

theorem WellFormedBits.slip (port : PortId) (kind : SlipKind) :
    WellFormedBits.Statement (.slip port kind) := WellFormedBits.of_none rfl

theorem WellFormedBits.stuckLineAssert (port : PortId) (bits : List Bool) :
    WellFormedBits.Statement (.stuckLineAssert port bits) := WellFormedBits.of_run rfl rfl

theorem WellFormedBits.stuckBlockEnd (port : PortId) (bits : List Bool) :
    WellFormedBits.Statement (.stuckBlockEnd port bits) := WellFormedBits.of_run rfl rfl

theorem WellFormedBits.qualityCompletion (port : PortId) (figure : BitVec 6) :
    WellFormedBits.Statement (.qualityCompletion port figure) := WellFormedBits.of_none rfl

theorem WellFormedBits.slot (port : PortId) :
    WellFormedBits.Statement (.slot port) := WellFormedBits.of_none rfl

theorem WellFormedBits.grantIssue (did : Did) (cls : GClass) :
    WellFormedBits.Statement (.grantIssue did cls) := WellFormedBits.of_none rfl

theorem WellFormedBits.grantExpiry (src : PortId) (did : Did) (cls : GClass) :
    WellFormedBits.Statement (.grantExpiry src did cls) := WellFormedBits.of_none rfl

theorem WellFormedBits.owedMarkerService :
    WellFormedBits.Statement (.owedMarkerService) := WellFormedBits.of_none rfl

theorem WellFormedBits.drainedCutover (did : Did) :
    WellFormedBits.Statement (.drainedCutover did) := WellFormedBits.of_none rfl

theorem WellFormedBits.moveDeadline (did : Did) :
    WellFormedBits.Statement (.moveDeadline did) := WellFormedBits.of_none rfl

theorem WellFormedBits.heldResponseOffer :
    WellFormedBits.Statement (.heldResponseOffer) := WellFormedBits.of_none rfl

theorem WellFormedBits.identify :
    WellFormedBits.Statement (.identify) := WellFormedBits.of_none rfl

theorem WellFormedBits.portSet :
    WellFormedBits.Statement (.portSet) := WellFormedBits.of_none rfl

theorem WellFormedBits.portGet :
    WellFormedBits.Statement (.portGet) := WellFormedBits.of_none rfl

theorem WellFormedBits.classSet :
    WellFormedBits.Statement (.classSet) := WellFormedBits.of_none rfl

theorem WellFormedBits.poolSet :
    WellFormedBits.Statement (.poolSet) := WellFormedBits.of_none rfl

theorem WellFormedBits.lifetimeSet :
    WellFormedBits.Statement (.lifetimeSet) := WellFormedBits.of_none rfl

theorem WellFormedBits.mapSet :
    WellFormedBits.Statement (.mapSet) := WellFormedBits.of_none rfl

theorem WellFormedBits.mapMove :
    WellFormedBits.Statement (.mapMove) := WellFormedBits.of_none rfl

theorem WellFormedBits.mapGet :
    WellFormedBits.Statement (.mapGet) := WellFormedBits.of_none rfl

theorem WellFormedBits.groupSet :
    WellFormedBits.Statement (.groupSet) := WellFormedBits.of_none rfl

theorem WellFormedBits.groupGet :
    WellFormedBits.Statement (.groupGet) := WellFormedBits.of_none rfl

theorem WellFormedBits.noticeExpect :
    WellFormedBits.Statement (.noticeExpect) := WellFormedBits.of_none rfl

theorem WellFormedBits.noticeRead :
    WellFormedBits.Statement (.noticeRead) := WellFormedBits.of_none rfl

theorem WellFormedBits.countersRead :
    WellFormedBits.Statement (.countersRead) := WellFormedBits.of_none rfl

theorem WellFormedBits.testStart :
    WellFormedBits.Statement (.testStart) := WellFormedBits.of_none rfl

theorem WellFormedBits.testStop :
    WellFormedBits.Statement (.testStop) := WellFormedBits.of_none rfl

theorem WellFormedBits.testRead :
    WellFormedBits.Statement (.testRead) := WellFormedBits.of_none rfl

theorem WellFormedBits.linesSet :
    WellFormedBits.Statement (.linesSet) := WellFormedBits.of_none rfl

theorem WellFormedBits.fabricReset :
    WellFormedBits.Statement (.fabricReset) := WellFormedBits.of_none rfl

theorem WellFormedBits.badCommand :
    WellFormedBits.Statement (.badCommand) := WellFormedBits.of_none rfl

theorem WellFormedBits.checkerSync (port : PortId) (bits : List Bool) :
    WellFormedBits.Statement (.checkerSync port bits) := WellFormedBits.of_run rfl rfl

theorem WellFormedBits.testBlockEnd (port : PortId) (bits : List Bool) :
    WellFormedBits.Statement (.testBlockEnd port bits) := WellFormedBits.of_run rfl rfl

theorem WellFormedBits.timebaseCompletion (port : PortId) (bits : List Bool) :
    WellFormedBits.Statement (.timebaseCompletion port bits) := WellFormedBits.of_run rfl rfl

end Sys2Proof.Laws
end

