-- ==== Sys2Proof/Tests/Slice0.lean ====
section
/-! SUPPORT. Tests of the model, and for each statement with hypotheses a witness: a concrete state and
operands that meet them. Expected values are the manual's, or are worked by hand from its rules. -/

namespace Sys2Proof.Tests

open Sys2Proof Sys2Proof.Machine

set_option Elab.async false

/-! ### States and operands -/

/-- A port in UP that holds one class-0 cell. -/
def upPort : Port := { Port.reset with link := .up, partnerAligned := true, alignCount := 16, held := 1 }

/-- The reset state with port 0 replaced. -/
def withPort (P : Port) : State := State.reset.updPort 0 fun _ => P

/-- The reset state with port 0 in UP and DID 0 replaced. -/
def withDid (D : DidState) : State := (withPort upPort).updDid 0 fun _ => D

/-- A stored cell from port 0. -/
def cell0 (first last : Bool) : StoredCell :=
  { src := 0, first := first, last := last, count := 127, poison := false, payload := zeroPayload }

/-- A command of 31 parameters from port 0. -/
def cmdFor (code : Byte) (words : List Word) : CmdCell :=
  { src := 0, first := true, last := true, frame := Frame.make (code ++ 0x2A#8 ++ 31#8 ++ 0#8) words }

/-- A state with port 0 as given and a command of it at the head of the queue, the allowance use as given. -/
def commandOn (s : State) (P : Port) (use : Nat) (code : Byte) (words : List Word) : State :=
  { s.updPort 0 fun _ => P with
    cmdQueue := [cmdFor code words], cmdUnit := .ready, elementUse := use }

/-- A state with port 0 in UP and a command of it at the head of the queue, one element store free. -/
def readyOn (s : State) (code : Byte) (words : List Word) : State := commandOn s upPort 31 code words

/-- A command that is read as `want` is ready on any such state whose port holds it and has may-command set. -/
theorem commandOn_ready (s : State) (P : Port) (use : Nat) (code : Byte) (words : List Word) (want : Option Code)
    (h : (cmdFor code words).reading = want) (may : P.settings.mayCommand = true) (held : 1 ≤ P.held) :
    Ready (commandOn s P use code words) (cmdFor code words) [] want := by
  have hp : (commandOn s P use code words).port 0 = P := by simp [commandOn, State.port, State.updPort]
  refine ⟨rfl, rfl, h, ?_, ?_⟩
  · rw [show (cmdFor code words).src = 0 from rfl, hp]; exact may
  · rw [show (cmdFor code words).src = 0 from rfl, hp]; exact held

theorem readyOn_ready (s : State) (code : Byte) (words : List Word) (want : Option Code)
    (h : (cmdFor code words).reading = want) :
    Ready (readyOn s code words) (cmdFor code words) [] want :=
  commandOn_ready s upPort 31 code words want h rfl (by decide)

/-- A header with one leading byte that differs, count 127, no bid slot, its check in byte 15. -/
def headerOf (lead check : Byte) : HeaderBytes :=
  #v[lead, 0, 0, 0x7F, 0, 0, 0, 0, 0, 0, 0, 0, 0, 0xF0, 0x0A, check]

/-- A FILL with aligned set, a FILL with aligned clear, a MARK, and single class-0 cells to DID 0. -/
def fillAligned : RawCell := ⟨headerOf 0x01 0x65, zeroPayload⟩
def fillUnaligned : RawCell := ⟨headerOf 0x00 0xD0, zeroPayload⟩
def markCell : RawCell := ⟨headerOf 0x81 0x64, zeroPayload⟩
def ctrlSingle : RawCell := ⟨headerOf 0x67 0x93, zeroPayload⟩
def ctrlMiddle : RawCell := ⟨headerOf 0x61 0x24, zeroPayload⟩
def zeroCell : RawCell := ⟨Vector.replicate 16 0, zeroPayload⟩

/-- A class-0 LAST to DID 0 without a FIRST. -/
def ctrlLast : RawCell := ⟨headerOf 0x63 0x49, zeroPayload⟩

/-- A header like `headerOf` with one bid, of class 1 for DID 0, in slot A. -/
def biddingHeader (lead count check : Byte) : HeaderBytes :=
  #v[lead, 0, 0, 0x7F, 0, 0xA0, count, 0, 0, 0, 0, 0, 0, 0xF0, 0x0A, check]

/-- A MARK that bids 9, and a single class-1 cell for DID 0 whose header withdraws the bid for that DID. -/
def bidMark : RawCell := ⟨biddingHeader 0x81 9 0x73, zeroPayload⟩
def withdrawingData : RawCell := ⟨biddingHeader 0x2F 0 0x0C, zeroPayload⟩

/-! ### Well-formedness: each check refuses an ill-formed command -/

theorem test_wf_stuck_assert_needs_bits : (Instr.stuckLineAssert 0 []).wellFormed = false := by decide
theorem test_wf_stuck_block_needs_bits : (Instr.stuckBlockEnd 0 []).wellFormed = false := by decide
theorem test_wf_stuck_block_is_bounded :
    (Instr.stuckBlockEnd 0 (List.replicate 1025 true)).wellFormed = false := by decide +kernel
theorem test_wf_checker_sync_needs_bits : (Instr.checkerSync 0 []).wellFormed = false := by decide
theorem test_wf_test_block_needs_bits : (Instr.testBlockEnd 0 []).wellFormed = false := by decide
theorem test_wf_test_block_is_bounded :
    (Instr.testBlockEnd 0 (List.replicate 129 true)).wellFormed = false := by decide +kernel
theorem test_wf_timebase_needs_bits : (Instr.timebaseCompletion 0 []).wellFormed = false := by decide
theorem test_wf_full_block : (Instr.testBlockEnd 0 (List.replicate 128 true)).wellFormed = true := by
  decide +kernel

/-! ### Decoding: the table has no bits -/

theorem test_no_word_spells_a_command : decodeTableWord 32 0x01000000 = none := rfl

/-! ### Values of the manual -/

/-- The short forms of section 11.5.1. -/
theorem test_short_forms :
    [1000, 0, 31, 32, 127, 507904, 600000].map shortForm = [111, 0, 31, 40, 63, 255, 255] := by decide

/-- The allowances of section 3.5, DID 5 with U = 400 and with U = 2564: floor 64, floor
use 64, excess 336 and 2500. -/
theorem test_allowances_of_section_3_5 :
    [allowanceOf 3000 1 64 64 336, allowanceOf 3000 0 64 64 336, allowanceOf 3000 (-1) 64 64 336] =
      [3000, 2664, 1164] ∧
    [allowanceOf 3000 1 64 64 2500, allowanceOf 3000 0 64 64 2500, allowanceOf 3000 (-1) 64 64 2500] =
      [3000, 500, 0] := by decide

/-- FreeShared 7 with exponent -3 gives target 0 (R51). -/
theorem test_target_rounds_down : targetOf 7 (-3) = 0 := by decide

/-- The shared pool at reset: 12000 (R44). -/
theorem test_shared_pool_at_reset : sharedPoolOf 2048 2048 = 12000 := by decide

/-- The pattern word of a cadence Send, Idle, Idle, Send: bit i is slot i (R164). -/
theorem test_cadence_word : cadenceWord [true, false, false, true] = 9 := by decide

/-- Two floors to a word, the even DID in the upper half (R167). -/
theorem test_floor_halves :
    givenFloor (cmdFor 0x05 [0, 0, 0, 0x00400020]) 0 = 64 ∧
    givenFloor (cmdFor 0x05 [0, 0, 0, 0x00400020]) 1 = 32 := by decide +kernel

/-- Counters stay at their top value (R179), and the error count at its own (R187). -/
theorem test_counters_saturate :
    countUp (BitVec.allOnes 32) = BitVec.allOnes 32 ∧ countUp 7 = 8 ∧
    errorUp (BitVec.allOnes 48) = BitVec.allOnes 48 := by decide

/-- The quality alarm at A = 6 and D = 12 (R33). -/
theorem test_quality_alarm :
    [alarmAfter false 5 6 12, alarmAfter true 11 6 12, alarmAfter false 6 6 12, alarmAfter true 12 6 12] =
      [true, true, false, false] := by decide

/-- A Hoff at or below Hon acts as Hon + 1 (R137). -/
theorem test_hold_hysteresis :
    [holdAfter false 10 10 5, holdAfter true 11 10 5, holdAfter true 11 10 20] = [true, false, true] := by
  decide

/-- The published check values of the two generators over the digits 1 to 9 (R2, R3). -/
theorem test_check_of_digits :
    headerCheck [0x31, 0x32, 0x33, 0x34, 0x35, 0x36, 0x37, 0x38, 0x39] = 0x0B ∧
    payloadCheck [0x31, 0x32, 0x33, 0x34, 0x35, 0x36, 0x37, 0x38, 0x39] = 0x29B1 := by
  set_option maxRecDepth 20000 in decide +kernel

/-- Classification of R1: a DATA cell of class 0, a CTRL cell of class 1 and a MARK are BAD_KIND. -/
theorem test_bad_kinds :
    [0x21, 0x69, 0x81].map (fun b => (IngressHeader.read (headerOf b 0)).classify) =
      [.badKind, .badKind, .badKind] := by decide +kernel

/-- Bytes of an egress header by section 1.6.2: a single class-2 DATA cell for DID 9 from port 6, plane 5,
two credits, one grant of class 3 for DID 4 with quota 8, and an UNMAPPED refusal of class 1 for DID 7. -/
theorem test_egress_bytes :
    egressFieldBytes (storedFields 1 .c2 9 { cell0 true true with src := 6 })
      { aligned := true, plane := 5, mcHold := true, grants := [⟨.c3, 4, 8⟩],
        refusal := some ⟨.c1, 7, .unmapped⟩, credits := 2 } =
      [0x37, 0x4D, 0x7F, 0x46, 0x81, 0xA7, 0xE4, 8, 0, 0, 0, 0, 0] := by decide +kernel

/-! ### Witnesses: the step and the laws -/

theorem witness_StepRunsTheFrontCommand :
    { State.reset with pending := [.slot 0, .identify] }.pending = .slot 0 :: [.identify] := rfl

theorem witness_SettingsChangeOnlyByTheirCommands :
    (∃ t, exec .mapMove State.reset = .next t) ∧ (∀ straps, Instr.mapMove ≠ .deviceReset straps) ∧
    ∃ t, exec (.qualityCompletion 0 5) State.reset = .next t ∧
      (t.port 0).link ≠ (State.reset.port 0).link := by
  refine ⟨⟨_, rfl⟩, by simp, _, rfl, ?_⟩
  decide +kernel

/-- A state a step can leave: a microsecond after reset, with a command waiting. -/
def ticked : State := { State.reset with now := 1, pending := [.heldResponseOffer] }

theorem ticked_port (p : PortId) : ticked.port p = .reset := by
  simp [ticked, State.port, State.reset]

theorem ticked_did (d : Did) : ticked.did d = .reset d := by
  simp [ticked, State.did, State.reset]

theorem ticked_steps : ∃ t, step ticked = .next t := ⟨_, rfl⟩

theorem ticked_grant (p : PortId) (d : Did) (c : GClass) : ticked.grant p d c = none := by
  unfold State.grant Port.grant
  rw [ticked_port]
  cases c <;> simp [Port.reset, PerG.get, PerG.const]

theorem ticked_train (p : PortId) (d : Did) (c : Cls) : ticked.train p d c = .idle := by
  unfold State.train Port.train
  rw [ticked_port]
  cases c <;> simp [Port.reset, PerClass.get, PerClass.const]

theorem ticked_bids (d : Did) (c : GClass) : ticked.bids d c = [] := by
  unfold State.bids
  rw [ticked_did]
  cases c <;> rfl

theorem ticked_queue (d : Did) (c : Cls) : ticked.queue d c = [] := by
  unfold State.queue
  rw [ticked_did]
  cases c <;> rfl

theorem ticked_usage (d : Did) (c : GClass) : ticked.usage d c = ⟨0, 0⟩ := by
  unfold State.usage
  rw [ticked_did]
  cases c <;> rfl

theorem ticked_settings : ticked.SettingsLaw := by
  refine ⟨fun p => ?_, ?_, ?_, ?_, ?_⟩
  · rw [ticked_port]
    simp [Port.reset, Settings.InRange, Settings.reset]
  · unfold ClassSettings.InRange; decide
  · unfold ClassSettings.InRange; decide
  · unfold ClassSettings.InRange; decide
  · decide +kernel

theorem ticked_destinations : ticked.DestDownLaw := by
  intro d _
  refine ⟨ticked_queue d, ticked_bids d, by simp [ticked, State.reset], fun p =>
    ⟨fun c => ticked_grant p d c, fun c => ticked_train p d c, fun c => ?_⟩⟩
  unfold State.mcTrain
  rw [ticked_port]
  cases c <;> simp [Port.reset, PerG.get, PerG.const, McTrain.idle, DidSet.has]

theorem ticked_grants : ticked.GrantLaw := by
  refine ⟨fun d c => ?_, fun p => ?_⟩
  · rw [ticked_bids]
    refine ⟨List.nodup_nil, by simp, fun p g h => ?_⟩
    rw [ticked_grant] at h
    cases h
  · rw [ticked_port]
    exact ⟨List.nodup_nil, by simp [Port.reset]⟩

theorem ticked_elements : ticked.ElementLaw := by unfold State.ElementLaw; decide +kernel

theorem ticked_pool : ticked.PoolLaw := by unfold State.PoolLaw; decide

theorem ticked_refs : ticked.RefLaw := by
  refine ⟨fun d c => ?_, fun d => ?_, fun d c n h => ?_, fun m h => ?_⟩
  · rw [ticked_queue, ticked_did]
    cases c <;> rfl
  · rw [ticked_queue]
    rfl
  · rw [ticked_queue] at h
    cases h
  · cases h

theorem witness_BoundsAreKept :
    ((ticked.CreditLaw ∧ ticked.ElementLaw ∧ ticked.ListLaw ∧ ticked.PoolLaw) ∧ ticked.MoveLaw ∧ ticked.HoldLaw) ∧
      ∃ t, step ticked = .next t := by
  refine ⟨⟨⟨fun p => ?_, ticked_elements,
    ⟨by decide, by decide, List.nodup_nil, fun _ => rfl, fun p => ?_⟩, ticked_pool⟩, fun d h => ?_,
    ⟨by decide, by decide⟩⟩, ticked_steps⟩
  · rw [ticked_port]
    decide
  · rw [ticked_port]
    decide
  · rw [ticked_did] at h
    by_cases hd : d.val < 24 <;> simp [DidState.reset, hd, DidMap.isMoving] at h

theorem ticked_ranges : ticked.RangeLaw := by
  intro p
  rw [ticked_port]
  refine ⟨⟨by decide, by decide, by decide, fun _ => rfl, fun _ => rfl, fun c => ?_, by decide⟩,
    ⟨by decide, fun _ => rfl⟩, ?_, nofun, nofun⟩
  · cases c <;> decide
  · refine ⟨by decide, by decide, by decide, by decide, by decide, nofun, nofun, fun _ => rfl, ?_, ?_,
      fun _ => ⟨rfl, rfl, rfl⟩, fun _ => rfl⟩
    · intro k length _ h
      cases h
      simp_all [Port.reset, PatternUnit.reset]
    · intro period h
      simp [Port.reset, PatternUnit.reset] at h

theorem witness_SettingsStayInRange :
    (ticked.SettingsLaw ∧ ticked.SharedPoolLaw ∧ ticked.RangeLaw) ∧ ∃ t, step ticked = .next t :=
  ⟨⟨ticked_settings, by unfold State.SharedPoolLaw; decide +kernel, ticked_ranges⟩, ticked_steps⟩

/-- Port 0 in TEST with a USER checker, its first slot next. -/
def startingTest : State :=
  { withPort { Port.reset with
      link := .test, test := .start { PatternUnit.reset.settings with chkPattern := .user } } with
    pending := [.slot 0] }

theorem startingTest_port (p : PortId) : (startingTest.port p).settings = .reset ∧
    (startingTest.port p).round = .reset ∧ (startingTest.port p).stuck = .reset ∧
    ((startingTest.port p).test = .reset ∧ (startingTest.port p).link = .acquiring ∨
      (startingTest.port p).test = .start { PatternUnit.reset.settings with chkPattern := .user }) := by
  have h : startingTest.port p = (withPort { Port.reset with
      link := .test, test := .start { PatternUnit.reset.settings with chkPattern := .user } }).port p := rfl
  rw [h, withPort, State.updPort_port]
  by_cases hp : p = 0 <;> simp [hp, State.port, State.reset, Port.reset]

/-- A port in TEST before the first slot of its test is in range, and that slot follows. -/
theorem witness_SettingsStayInRange_test :
    (startingTest.SettingsLaw ∧ startingTest.RangeLaw) ∧ (startingTest.port 0).link = .test ∧
      ∃ t, step startingTest = .next t ∧ (t.port 0).test.running = true := by
  refine ⟨⟨⟨fun p => ?_, ticked_settings.2.1, ticked_settings.2.2.1, ticked_settings.2.2.2.1, by decide +kernel⟩,
    fun p => ?_⟩, by decide +kernel, _, rfl, by decide +kernel⟩
  · rw [(startingTest_port p).1]
    simp [Settings.InRange, Settings.reset]
  · obtain ⟨-, hr, hs, ht⟩ := startingTest_port p
    obtain ⟨round, stuck, test, -, -⟩ := ticked_ranges p
    rw [ticked_port] at round stuck test
    rw [hr, hs]
    rcases ht with ⟨ht, hl⟩ | ht
    · rw [ht, hl]
      exact ⟨round, stuck, test, nofun, nofun⟩
    · rw [ht]
      refine ⟨round, stuck, ⟨by decide, by decide, by decide, by decide, by decide, nofun, nofun, fun _ => rfl,
        ?_, ?_, nofun, fun _ => rfl⟩, nofun, fun _ _ => by decide⟩
      · intro k length h hk
        exact Nat.zero_le _
      · intro period h
        simp [PatternUnit.start, PatternUnit.reset] at h

theorem ticked_notices : ticked.NoticeLaw := by
  intro p
  rw [ticked_port]
  simp [Port.reset]

theorem witness_LinkStatesAreKept : ticked.LinkLaw ∧ ticked.NoticeLaw ∧ ∃ t, step ticked = .next t := by
  refine ⟨fun p => ⟨?_, fun _ => ⟨fun d c => ⟨ticked_grant p d c, ?_⟩, ?_⟩⟩, ticked_notices, ticked_steps⟩
  · rw [ticked_port]
    exact ⟨rfl, by decide, rfl, rfl, rfl, by decide, rfl⟩
  · rw [ticked_bids]
    rfl
  · rw [ticked_port]
    exact ⟨rfl, rfl, rfl, rfl⟩

theorem witness_DestinationsDownStayEmpty : ticked.DestDownLaw ∧ ∃ t, step ticked = .next t :=
  ⟨ticked_destinations, ticked_steps⟩

theorem witness_GrantsStayWithinBacklog :
    (ticked.SettingsLaw ∧ ticked.DestDownLaw ∧ ticked.GrantLaw) ∧ ∃ t, step ticked = .next t :=
  ⟨⟨ticked_settings, ticked_destinations, ticked_grants⟩, ticked_steps⟩

theorem witness_EveryStoreIsCounted :
    (ticked.SettingsLaw ∧ ticked.DestDownLaw ∧ ticked.GrantLaw ∧ ticked.ElementLaw ∧ ticked.PoolLaw ∧
      ticked.RefLaw ∧ ticked.AccountLaw) ∧ ∃ t, step ticked = .next t := by
  refine ⟨⟨ticked_settings, ticked_destinations, ticked_grants, ticked_elements, ticked_pool, ticked_refs,
    fun d c => ⟨?_, ?_⟩, fun p => ?_, ?_⟩, ticked_steps⟩
  · rw [ticked_usage, ticked_queue]
    rfl
  · rw [ticked_usage]
    simp only [ticked_grant]
    decide
  · rw [ticked_port]
    simp only [ticked_queue]
    decide +revert
  · decide +kernel

/-! ### Witnesses: resets and formats -/

/-- With port 0 FAULTED the functions HIGH and ANY_FAULTED drive 1, the others 0 (R182). -/
theorem witness_DeviceResetOfTheElement :
    let u := withPort { upPort with link := .faulted }
    let drives (f : LineFunction) : Prop := f = .high ∨ f = .anyFaulted
    (drives .low ↔ False) ∧ (drives .high ↔ True) ∧
    (drives .noticePending ↔ (∃ p : PortId, (u.port p).noticeFlag = true) ∨
      ∃ d : Did, (u.did d).moveDone = true) ∧
    (drives .anyFaulted ↔ ∃ p : PortId, (u.port p).link = .faulted) ∧
    (drives .mcHold ↔ u.mcHold = true) := by decide +kernel

theorem witness_FabricResetEmptiesTheElement :
    let s := readyOn State.reset 0x13 []
    s.cmdUnit = .ready ∧ s.cmdQueue = [cmdFor 0x13 []] ∧
    (cmdFor 0x13 []).reading = some .fabricReset ∧
    (s.port (cmdFor 0x13 []).src).settings.mayCommand = true := by decide +kernel

theorem witness_EgressChecksMatch :
    (Status.inUse, 6) ∈ [(Status.done, 0), (.clamped, 1), (.busy, 2), (.denied, 3), (.badCommand, 4), (.badValue, 5),
      (.inUse, 6), (.lockout, 7)] ∧ ([5, 6] : List Word).length ≤ 31 ∧
    ((⟨.c1, 7, .revoked⟩ : RefusalEntry).reason, 3) ∈ [(Reason.unmapped, 1), (.destDown, 2), (.revoked, 3)] ∧
    ([⟨.c3, 4, 8⟩] : List GrantEntry)[0]? = some ⟨.c3, 4, 8⟩ ∧ ([⟨.c3, 4, 8⟩] : List GrantEntry)[2]? = none ∧
    bidMark.header.toList[5 + 2 * 0]? = some 0xA0 ∧ bidMark.header.toList[7 + 2 * 2]? = some 0 ∧
    (IngressHeader.read bidMark.header).bids[0]? = some ⟨true, .c1, 0, 9⟩ ∧
    (let r : Nat → BitVec 8 := fun i => Nat.repeat crc8Bit i (~~~headerCheck [0x31] ^^^ 0x32)
     r 0 = ~~~headerCheck [0x31] ^^^ 0x32 ∧
     ∀ i : Fin 8, r (i + 1) = if (r i).getLsbD 7 then r i <<< 1 ^^^ 0x07 else r i <<< 1) ∧
    (let r : Nat → BitVec 16 := fun i => Nat.repeat crc16Bit i (payloadCheck [0x31] ^^^ ((0x32 : Byte) ++ (0 : Byte)))
     r 0 = payloadCheck [0x31] ^^^ ((0x32 : Byte) ++ (0 : Byte)) ∧
     ∀ i : Fin 8, r (i + 1) = if (r i).getLsbD 15 then r i <<< 1 ^^^ 0x1021 else r i <<< 1) := by decide +kernel

/-! ### Witnesses: the link -/

theorem witness_HeadersThatCostAlignment :
    headerPasses zeroCell.header = false ∧ headerPasses fillUnaligned.header = true ∧
    (IngressHeader.read fillUnaligned.header).aligned = false ∧
    (let s := withPort { upPort with failCount := 2 }; (s.port 0).link = .up ∧ (s.port 0).failCount < 3) ∧
    (let s := withPort { upPort with link := .waiting, failCount := 3 }
     (s.port 0).link = .waiting ∧ (s.port 0).failCount = 3 ∧ (s.port 0).faultCause = false) ∧
    (State.reset.port 0).link ≠ .up ∧ (State.reset.port 0).link ≠ .waiting ∧
    ((withPort { upPort with link := .faulted }).port 0).link ∈ [.disabled, .faulted, .test] ∧
    ((withPort upPort).port 0).link = .up ∧ ((withPort upPort).port 0).faultCause = false := by
  set_option maxRecDepth 20000 in decide +kernel

theorem witness_HandshakeBringsPortsUp :
    headerPasses fillAligned.header = true ∧ (IngressHeader.read fillAligned.header).aligned = true ∧
    headerPasses fillUnaligned.header = true ∧
    (IngressHeader.read fillUnaligned.header).aligned = false ∧
    ((withPort { upPort with link := .waiting }).port 0).link = .waiting ∧
    (let P := (withPort { Port.reset with alignCount := 14 }).port 0
     P.link = .acquiring ∧ P.searchBytes = [] ∧ P.searchSkip = 0 ∧ P.alignCount < 15) ∧
    (let P := (withPort { Port.reset with alignCount := 15 }).port 0
     P.link = .acquiring ∧ P.searchBytes = [] ∧ P.searchSkip = 0 ∧ P.alignCount = 15) := by
  set_option maxRecDepth 20000 in decide +kernel

/-- A port in the byte search: the bytes held, those still to skip, and the count. -/
def searching (held : List Byte) (skip count : Nat) : Port :=
  { Port.reset with searchBytes := held, searchSkip := skip, alignCount := count }

/-- Three bytes held put the header of an arriving cell at byte 3 of the stream: a candidate at byte 0 fails, one
at byte 3 passes, and at byte 140 of the 147 too few bytes are left. -/
theorem witness_TheByteSearchFollowsTheStream :
    (∀ skip count, (searching [1, 2, 3] skip count).link = .acquiring) ∧
    (let bytes := [1, 2, 3] ++ fillAligned.header.toList ++ fillAligned.payload.toList
     let candidate (skip : Nat) : HeaderBytes := Vector.ofFn fun i => bytes.getD (skip + i.val) 0
     bytes.length < 140 + 16 ∧ 0 + 16 ≤ bytes.length ∧ headerPasses (candidate 0) = false ∧
       3 + 16 ≤ bytes.length ∧ headerPasses (candidate 3) = true) ∧
    (searching [1, 2, 3] 3 14).alignCount < 15 ∧ 15 ≤ (searching [1, 2, 3] 3 15).alignCount := by
  refine ⟨fun _ _ => rfl, ?_, by decide, by decide⟩
  set_option maxRecDepth 20000 in decide +kernel

/-- A cell whose first byte is byte 3 of the stream is found at that byte, with 15 passed before it (R21, R22). -/
theorem test_byte_search_finds_the_cell :
    (match exec (.ingressCell 0 fillAligned) (withPort (searching [1, 2, 3] 3 15)) with
     | .next t => decide ((t.port 0).link = .up ∧ (t.port 0).alignCount = 16)
     | _ => false) = true := by
  set_option maxRecDepth 20000 in decide +kernel

theorem witness_SlipsThatKeepTheState :
    ((withPort { Port.reset with link := .disabled }).port 0).link = .disabled ∧
    ((withPort { Port.reset with link := .faulted }).port 0).link = .faulted ∧
    ((withPort { Port.reset with link := .test }).port 0).link = .test ∧
    (State.reset.port 0).link = .acquiring ∧
    ((withPort upPort).port 0).link = .up ∧ ((withPort upPort).port 0).settings.autoRecentre = true ∧
    (let P := (withPort { upPort with
        link := .waiting, settings := { Settings.reset with autoRecentre := false } }).port 0
     P.link = .waiting ∧ P.settings.autoRecentre = false ∧ P.faultCause = false) := by decide +kernel

/-- Port 0 in UP, taken down by a slip. -/
def slipping : State := withPort { upPort with settings := { Settings.reset with autoRecentre := false } }

/-- A refusal outbox with room, and one that is full and counts a refusal lost. -/
def boxOf (n : Nat) : List RefusalEntry := (List.range n).map fun i => ⟨.c1, Fin.ofNat 32 (i + 8), .unmapped⟩

/-- Header loss, a fault and enable cleared take port 0 out of UP. -/
theorem witness_PortDownReachesEveryBlock_causes :
    ((withPort { upPort with failCount := 3 }).port 0).link = .up ∧
    (∃ t, exec (.ingressCell 0 zeroCell) (withPort { upPort with failCount := 3 }) = .next t ∧
      (t.port 0).link ≠ .up) ∧
    (∃ t, exec (.qualityCompletion 0 5) (withPort upPort) = .next t ∧ (t.port 0).link ≠ .up) ∧
    (let s := readyOn (State.reset.updPort 1 fun _ => upPort) 0x02 [1, 1, 0]
     (s.port 1).link = .up ∧ ∃ t, exec .portSet s = .next t ∧ (t.port 1).link ≠ .up) := by
  refine ⟨by decide +kernel, ⟨_, rfl, ?_⟩, ⟨_, rfl, ?_⟩, ?_, _, rfl, ?_⟩ <;>
    set_option maxRecDepth 20000 in decide +kernel

theorem witness_PortDownReachesEveryBlock :
    (slipping.port 0).link = .up ∧ (slipping.port 0).settings.autoRecentre = false ∧
    (slipping.port 0).faultCause = false ∧ slipping.mapsTo 0 0 = true ∧ slipping.mapsTo 1 0 = false ∧
    (let s := slipping.updDid 0 fun D =>
        { D with map := .moving 0 1 500 0, queues := ⟨[], [.mark 3 false], [], []⟩ }
     (s.did 0).map = .moving 0 1 500 0 ∧ s.drained 0 = false) ∧
    (let s := ((slipping.updPort 1 fun _ => { upPort with refusalOutbox := boxOf 3 }).setGrant 1 0 .c1
        (some ⟨3, some 40⟩)).setBids 0 .c1 [⟨1, 3⟩]
     s.mapsTo 0 0 = true ∧ (1 : PortId) ≠ 0 ∧ s.isUp 1 = true ∧ s.grant 1 0 .c1 ≠ none ∧
     bidOf 1 (s.bids 0 .c1) ≠ none ∧ (s.port 1).refusalOutbox.length = 3) ∧
    (let s := { ((slipping.updPort 1 fun _ => upPort).setTrain 0 1 .c1 .open).setMcTrain 0 .c2 ⟨.open, 2⟩ with
        markerUse := 62 }
     s.mapsTo 1 0 = false ∧ s.reachable 1 = true ∧ s.train 0 1 .c1 ≠ .idle ∧
     (s.mcTrain 0 .c2).state ≠ .idle ∧ DidSet.has (s.mcTrain 0 .c2).snapshot 1 = true ∧
     s.EndedTrains 0 (s.sourceDownKeys 0) ∧ s.owedMarkers = [] ∧
     s.markerUse + (s.sourceDownKeys 0).length = 64) ∧
    (let f := (cmdFor 1 []).frame
     let s := { (slipping.updPort 0 fun P => { P with elements := [f] }).updPort 1 fun _ => upPort with
        elementUse := 32, cmdUnit := .holding 1 f }
     s.cmdUnit = .holding 1 f ∧ (1 : PortId) ≠ 0 ∧ s.isUp 1 = true ∧ s.elementUse ≤ 32 ∧
     (s.port 0).elements ≠ []) :=
  ⟨by decide +kernel, by decide +kernel, by decide +kernel, by decide +kernel, by decide +kernel, by decide +kernel,
    by decide +kernel,
    ⟨by decide +kernel, by decide +kernel, by decide +kernel, by decide +kernel, by decide +kernel,
      State.sourceDownKeys_ended _ _, by decide +kernel⟩,
    by decide +kernel⟩

/-- Port 0 in UP with an open train to DID 1 and a MARK queued to DID 0, which is its own; no marker store is
free. -/
def endingTrain : State :=
  { ((slipping.updPort 1 fun _ => upPort).setTrain 0 1 .c1 .open).setQueue 0 .c1 [.mark 3 false] with
    markerUse := 64 }

/-- The key of the open train is owed, and the store that the flush of DID 0 returns places it (R102, R104). -/
theorem witness_PortDownReachesEveryBlock_markers :
    endingTrain.EndedTrains 0 [⟨0, 1, .c1, false⟩] ∧ endingTrain.ListLaw ∧ endingTrain.DestDownLaw ∧
    0 = 64 - endingTrain.markerUse ∧
    1 = (allDids.map fun d => if endingTrain.mapsTo d 0 then (endingTrain.did d).marks else 0).sum ∧
    1 ≤ endingTrain.markerUse ∧
    [⟨0, 1, .c1, false⟩] = (endingTrain.owedMarkers ++ (([⟨0, 1, .c1, false⟩] : List MarkerKey).drop 0).filter
      fun k => !decide (k ∈ endingTrain.owedMarkers)).filter (fun k => !endingTrain.mapsTo k.did 0) := by
  have keys : [⟨0, 1, .c1, false⟩] = endingTrain.sourceDownKeys 0 := by decide +kernel
  have down : ∀ d : Did, endingTrain.reachable d = false →
      (∀ c ∈ Cls.all, endingTrain.queue d c = []) ∧ (∀ c ∈ GClass.all, endingTrain.bids d c = []) ∧
      ∀ p : PortId, (∀ c ∈ GClass.all, endingTrain.grant p d c = none ∧
        DidSet.has (endingTrain.mcTrain p c).snapshot d = false) ∧
        ∀ c ∈ Cls.all, endingTrain.train p d c = .idle := by decide +kernel
  have every : ∀ c : Cls, c ∈ Cls.all := by intro c; cases c <;> decide
  have everyG : ∀ c : GClass, c ∈ GClass.all := by intro c; cases c <;> decide
  refine ⟨keys ▸ State.sourceDownKeys_ended _ _, by unfold State.ListLaw; decide +kernel, fun d h => ?_,
    by decide +kernel⟩
  obtain ⟨q, b, r⟩ := down d h
  exact ⟨fun c => q c (every c), fun c => b c (everyG c), fun k hk => (by cases hk), fun p =>
    ⟨fun c => ((r p).1 c (everyG c)).1, fun c => (r p).2 c (every c), fun c => ((r p).1 c (everyG c)).2⟩⟩

theorem test_returned_store_places_the_marker :
    (match exec (.slip 0 .overflow) endingTrain with
     | .next t => decide (t.queue 1 .c1 = [.mark 0 false] ∧ t.owedMarkers = [] ∧ t.markerUse = 64)
     | _ => false) = true := by decide +kernel

/-- Port 0 in UP with a class-0 cell of port 1, which is UP too, queued to DID 0, which is its own. -/
def flushing : State :=
  (slipping.updPort 1 fun _ => upPort).setQueue 0 .c0 [.cell { cell0 true true with src := 1 }]

theorem witness_PortDownReachesEveryBlock_credits :
    flushing.cmdQueue = [] ++ flushing.cmdQueue ∧
    1 = ((allDids.filter fun d => flushing.mapsTo d 0).map
      fun d => (flushing.queue d .c0).countP (QEntry.isFrom 1)).sum +
      ([] : List CmdCell).countP (fun x => decide (x.src = 1)) ∧
    1 ≤ (flushing.port 1).held ∧ (1 : PortId) ≠ 0 ∧ flushing.isUp 1 = true := by decide +kernel

/-- The card of port 1 has the credit of its flushed cell back (R124, R155). -/
theorem test_flush_returns_the_credit :
    (match exec (.slip 0 .overflow) flushing with
     | .next t => decide ((t.port 1).held = 0 ∧ (t.port 1).owed = 1 ∧ t.queue 0 .c0 = [])
     | _ => false) = true := by decide +kernel

/-- A slip that takes port 0 down finds no drained move with nothing behind it: DID 0 cuts over in that event,
and the one notice of the event names it (R148, R152, R177). -/
theorem test_port_down_cuts_over :
    (match exec (.slip 0 .overflow) ((slipping.updPort 1 fun _ =>
        { upPort with settings := { Settings.reset with report := true } }).updDid 0 fun D =>
        { D with map := .moving 0 1 500 0, queues := ⟨[], [.mark 3 false], [], []⟩ }) with
     | .next t => decide ((t.did 0).map = .mapped 1 ∧ (t.did 0).lastMove = .drained) &&
         ((t.port 1).elements.map fun f => f.word 2) == [1]
     | _ => false) = true := by decide +kernel

/-- Runs that reach 4096 by a bit that continues them, by 4096 bits after a differing bit or at the first bit, a run
of 600 under an N lowered to 1, and a run that stays below. -/
theorem witness_StuckLineAsserts :
    (∀ x ∈ ([(some false, 4095, 1), (some true, 4095, 4096), (none, 0, 4096)] : List (Option Bool × Nat × Nat)),
      let m : StuckMonitor := { StuckMonitor.reset with runLength := x.2.1, lastBit := x.1 }
      m.asserted = false ∧ 0 < x.2.2 ∧ m.blockBits < 1024 ∧
      (if m.lastBit = some false then m.runLength else 0) + x.2.2 = (15 + 1) * 256) ∧
    (upPort.link ≠ .disabled ∧ upPort.settings.stuckN = 15 ∧ (0 + 1) % 1024 ≠ 0) ∧
    (let m : StuckMonitor := { StuckMonitor.reset with runLength := 600, lastBit := some true }
     m.asserted = false ∧ m.lastBit = some true ∧ (1 + 1) * 256 ≤ m.runLength + 1 ∧
       m.runLength + 1 < (15 + 1) * 256) := by decide

/-- N lowered below a run in progress: the next bit that continues it asserts (R32). -/
theorem test_lowered_threshold_asserts :
    (match exec (.stuckLineAssert 0 [true]) (withPort { upPort with
        settings := { Settings.reset with stuckN := 1 },
        stuck := { StuckMonitor.reset with runLength := 600, lastBit := some true } }) with
     | .next t => decide ((t.port 0).stuck.asserted = true ∧ (t.port 0).link = .faulted)
     | _ => false) = true := by decide +kernel

/-- A FAULTED port one bit before the end of a block of its asserted monitor. -/
def stuckPort (clean : Nat) (transition : Bool) : Port :=
  { Port.reset with
    link := .faulted,
    stuck := { asserted := true, runLength := 7, cleanBlocks := clean, lastBit := some true,
               blockBits := 1023, blockTransition := transition } }

theorem witness_StuckBlockEnds :
    (∀ clean transition, (stuckPort clean transition).link ≠ .disabled ∧
      (stuckPort clean transition).stuck.asserted = true ∧
      (stuckPort clean transition).stuck.blockBits = 1023 ∧
      (stuckPort clean transition).stuck.runLength + 1 ≠
        ((stuckPort clean transition).settings.stuckN + 1) * 256) ∧
    30 + 1 < ((stuckPort 30 true).settings.stuckK + 1) * 4 ∧
    ((stuckPort 31 true).settings.stuckK + 1) * 4 ≤ 31 + 1 ∧ (stuckPort 31 true).link = .faulted ∧
    (stuckPort 5 false).stuck.blockTransition = false ∧ (stuckPort 5 false).stuck.lastBit = some true ∧
    (let m := { (stuckPort 5 true).stuck with runLength := 4095, blockBits := 1022 }
     m.asserted = true ∧ m.lastBit = some true ∧ m.blockBits < 1023 ∧ m.runLength + 1 = (15 + 1) * 256) ∧
    (let m := { (stuckPort 5 false).stuck with blockBits := 1022 }
     m.asserted = true ∧ m.blockBits < 1023 ∧ m.runLength + 1 ≠ (15 + 1) * 256 ∧ 1 ≠ (15 + 1) * 256) := by
  refine ⟨fun clean transition => ⟨?_, rfl, rfl, ?_⟩, ?_⟩
  · simp [stuckPort]
  · simp [stuckPort, Port.reset, Settings.reset]
  · decide

theorem witness_QualityCompletions :
    ((withPort { Port.reset with link := .disabled }).port 0).link = .disabled ∧
    (let P := (withPort upPort).port 0
     P.link ≠ .disabled ∧ (5#6).toNat < P.settings.qualA ∧ P.settings.qualA ≤ (6#6).toNat ∧
     (11#6).toNat < P.settings.qualD ∧ P.settings.qualD ≤ (12#6).toNat) := by decide +kernel

/-! ### Witnesses: the slot -/

theorem witness_SlotsOutsideUp :
    (∀ a, (fun b => Sent.cell (egressCell fillFields
        { aligned := b, plane := State.reset.plane, mcHold := State.reset.mcHold, grants := [],
          refusal := none, credits := 0 } zeroPayload)) a =
      Sent.cell (egressCell fillFields
        { aligned := a, plane := State.reset.plane, mcHold := State.reset.mcHold, grants := [],
          refusal := none, credits := 0 } zeroPayload)) ∧
    (∀ l, ({ Port.reset with link := l } : Port).link = l) ∧
    (let P := (withPort { Port.reset with link := .test }).port 0
     P.link = .test ∧ P.test.settings.genPattern = .off) ∧
    (let P := (withPort { Port.reset with
        link := .test, test := { PatternUnit.start { PatternUnit.reset.settings with genPattern := .user } with
          genPos := 63 } }).port 0
     P.link = .test ∧ P.test.settings.genPattern = .user ∧ P.test.genPos < 64) ∧
    (let P := (withPort { Port.reset with
        link := .test, test := PatternUnit.start { PatternUnit.reset.settings with genPattern := .p31 } }).port 0
     P.link = .test ∧ (P.test.settings.genPattern, 28, 31) ∈
       [(Pattern.p7, 6, 7), (.p23, 18, 23), (.p31, 28, 31)]) :=
  ⟨fun _ => rfl, fun _ => rfl, by decide +kernel, by decide +kernel, by decide +kernel⟩

/-- The reset state with port 0 replaced keeps the grant law where that port holds no record and no entry. -/
theorem withPort_grants (P : Port) (hg : P.grants = Port.reset.grants) (hb : P.grantOutbox = []) :
    (withPort P).GrantLaw := by
  have hp : ∀ q, ((withPort P).port q).grants = Port.reset.grants ∧ ((withPort P).port q).grantOutbox = [] := by
    intro q
    unfold withPort
    rw [State.updPort_port]
    by_cases h : q = 0
    · rw [if_pos h]
      exact ⟨hg, hb⟩
    · rw [if_neg h]
      simp [State.port, State.reset, Port.reset]
  have hn : ∀ q d c, (withPort P).grant q d c = none := by
    intro q d c
    unfold State.grant Port.grant
    rw [(hp q).1]
    cases c <;> simp [Port.reset, PerG.get, PerG.const]
  refine ⟨fun d c => ?_, fun q => ?_⟩
  · rw [show (withPort P).bids d c = ticked.bids d c from rfl, ticked_bids]
    refine ⟨List.nodup_nil, by simp, fun q g h => ?_⟩
    rw [hn] at h
    cases h
  · rw [(hp q).2]
    exact ⟨List.nodup_nil, by simp⟩

theorem witness_IdleSlotCarriesTheHeader :
    (let s := withPort { upPort with
       round := { Round.reset with pattern := [true, false], position := 1, wraps := false } }
     s.GrantLaw ∧ (s.port 0).link = .up ∧ (s.port 0).round.wraps = false ∧
      (s.port 0).round.pattern[(s.port 0).round.position]? = some false) ∧
    let s := withPort { upPort with holds := ⟨true, false, false, false⟩, elements := [(cmdFor 1 []).frame] }
    s.GrantLaw ∧ (s.port 0).link = .up ∧ (s.port 0).round.wraps = true ∧
      (s.port 0).settings.cadence[(s.port 0).round.position]? = some true ∧
      ((s.port 0).holds.c0 = false → (s.port 0).elements = []) ∧
      ∀ (d : Did) (c : Cls), s.mapsTo d 0 = true → (s.port 0).holds.get c = false → s.queue d c = [] :=
  ⟨⟨withPort_grants _ rfl rfl, by decide +kernel⟩, withPort_grants _ rfl rfl, by decide +kernel, by decide +kernel,
    by decide +kernel, by decide +kernel, fun d c _ _ => ticked_queue d c⟩

/-- A cadence stored while a slot of a pattern of length 1 is open acts at the next slot, and one stored before the
wrap of a longer pattern waits for it (R114): the element cell stays, or leaves. -/
theorem test_cadence_acts_after_the_wrap :
    ([Round.start [true] State.reset.classes, Round.start [true, true] State.reset.classes].map fun r =>
      match exec (.slot 0) (withPort { upPort with
          settings := { Settings.reset with cadence := [false] }, round := r, elements := [(cmdFor 1 []).frame] }) with
      | .next t => (t.port 0).elements.length
      | _ => 9) = [1, 0] := by decide +kernel

theorem witness_ElementCellDeparts :
    let f := responseFrame (cmdFor 1 []).frame .busy []
    let s := withPort { upPort with elements := [f] }
    s.GrantLaw ∧ ((s.port 0).link = .up ∧ (s.port 0).round.wraps = true ∧
      (s.port 0).settings.cadence[(s.port 0).round.position]? = some true ∧
      (s.port 0).holds.c0 = false ∧ (s.port 0).elements = [f] ∧
      (∀ d : Did, s.mapsTo d 0 = true → s.queue d .c0 = []) ∧ s.cmdUnit = .ready) ∧
    { s with cmdUnit := .holding 0 f, elementUse := 32 }.isUp 0 = true :=
  ⟨withPort_grants _ rfl rfl, by decide +kernel, by decide +kernel⟩

/-- DIDs 0, 1 and 2 mapped to port 0 with entries of granted classes, and its budgets. -/
def contending (budget : PerG Nat) : State :=
  ((withPort { upPort with round := { Round.reset with budget := budget, didPointer := ⟨1, 0, 0⟩ } }).updDid 0
      fun D => { D with queues := ⟨[], [.mark 3 false], [], []⟩ }).updDid 2
      fun D => { D with map := .mapped 0, queues := ⟨[], [.mark 3 false], [.mark 4 false], []⟩ }

theorem witness_SelectionRespectsHolds :
    ((withDid { DidState.reset 0 with queues := ⟨[.cell (cell0 true true)], [], [], []⟩ }).select 0).1 =
      some (.queue 0 .c0) ∧
    ((withDid { DidState.reset 0 with queues := ⟨[], [], [], [.mark 3 false]⟩ }).select 0).1 =
      some (.queue 0 .c3) ∧
    ((withPort { upPort with elements := [(cmdFor 1 []).frame] }).select 0).1 = some .element ∧
    ((withPort upPort).select 0).1 = none ∧ (withPort upPort).mapsTo 0 0 = true ∧
    ((withPort upPort).port 0).holds.get .c2 = false ∧
    (contending ⟨8, 4, 2⟩).select 0 = (some (.queue 2 .c1),
      { Round.reset with budget := ⟨7, 4, 2⟩, didPointer := ⟨3, 0, 0⟩ }) ∧
    ((contending ⟨0, 4, 2⟩).select 0).1 = some (.queue 2 .c2) ∧
    (contending ⟨0, 0, 0⟩).select 0 = (some (.queue 2 .c1),
      { Round.reset with budget := ⟨7, 4, 2⟩, didPointer := ⟨3, 0, 0⟩ }) := by
  decide +kernel

theorem witness_DeparturesRelease :
    (let s := withDid { DidState.reset 0 with queues := ⟨[.cell (cell0 true true)], [.cell (cell0 true false)],
        [.mark 3 true], [.mref 4, .mref 5]⟩ }
     s.queue 0 .c0 = [.cell (cell0 true true)] ∧ 1 ≤ (s.port (cell0 true true).src).held ∧
     s.queue 0 .c1 = [.cell (cell0 true false)] ∧ s.queue 0 .c2 = [.mark 3 true] ∧
     s.queue 0 .c3 = .mref 4 :: [.mref 5] ∧ s.owedMarkers = [] ∧
     (s.port 0).link = .up ∧ (s.port 0).round.wraps = true ∧
     (s.port 0).settings.cadence[(s.port 0).round.position]? = some true ∧
     (s.select 0).1 = some (.queue 0 .c0)) ∧
    (let gone : List MarkerKey := [⟨0, 5, .c1, false⟩]
     let s : State := { withPort upPort with markerUse := 64, owedMarkers := gone ++ ⟨2, 0, .c1, true⟩ :: [] }
     (∀ x ∈ gone, s.reachable x.did = false) ∧ s.reachable 0 = true ∧ 1 ≤ s.markerUse ∧ s.markerUse ≤ 64) ∧
    { State.reset with mcCells := [⟨4, cell0 true true, 1⟩] }.mcCell 4 = some ⟨4, cell0 true true, 1⟩ ∧
    { State.reset with mcCells := [⟨4, cell0 true true, 2⟩] }.mcCell 4 = some ⟨4, cell0 true true, 2⟩ := by
  decide +kernel

/-- The store of a MARK that leaves serves the owed list in its slot (R47, R102). -/
theorem test_mark_departure_serves :
    (match exec (.slot 0) { withDid { DidState.reset 0 with queues := ⟨[], [.mark 3 true], [], []⟩ } with
        markerUse := 64, owedMarkers := [⟨2, 0, .c2, true⟩] } with
     | .next t => decide (t.markerUse = 64 ∧ t.owedMarkers = [] ∧ t.queue 0 .c2 = [.mark 2 true])
     | _ => false) = true := by decide +kernel

/-! ### Witnesses: admission and arrival -/

theorem witness_AllowanceFollowsItsFormula :
    (State.reset.classes.get .c1).exponent = 1 ∧ State.reset.freeShared = 12000 ∧
    (State.reset.usage 3 .c1).occupied + (State.reset.usage 3 .c2).reserved = 0 ∧ (State.reset.did 3).floor = 64 ∧
    (24000 = 12000 * 2 ^ (1 : Int).toNat) ∧ (State.reset.classes.get .c3).exponent = -1 ∧
    (6000 = 12000 / 2 ^ (-(-1 : Int)).toNat) := by decide +kernel

theorem witness_BadKindTouchesNothing :
    ((withPort upPort).port 0).link = .up ∧ ∀ c ∈ [markCell, bidMark], headerPasses c.header = true ∧
      (IngressHeader.read c.header).aligned = true ∧ (IngressHeader.read c.header).classify = .badKind := by
  set_option maxRecDepth 20000 in decide +kernel

/-- A bid that drains a DID cuts it over before the cell of its header, which goes to the new port (R65, R148). -/
theorem test_bid_cuts_over_before_the_cell :
    (match exec (.ingressCell 0 withdrawingData) (((withDid { DidState.reset 0 with
        map := .moving 0 1 500 0, bids := ⟨[⟨0, 3⟩], [], []⟩, usage := ⟨⟨0, 3⟩, ⟨0, 0⟩, ⟨0, 0⟩⟩ }).updPort 1
        fun _ => upPort).setGrant 0 0 .c1 (some ⟨3, some 40⟩)) with
     | .next t => decide ((t.did 0).map = .mapped 1 ∧ (t.queue 0 .c1).length = 1 ∧ t.usage 0 .c1 = ⟨1, 0⟩)
     | _ => false) = true := by
  set_option maxRecDepth 20000 in decide +kernel

theorem witness_ClassZeroByCredit :
    (headerPasses ctrlSingle.header = true ∧ (IngressHeader.read ctrlSingle.header).aligned = true ∧
      (IngressHeader.read ctrlSingle.header).classify = .class0 ∧
      (IngressHeader.read ctrlSingle.header).did = 0 ∧
      (IngressHeader.read ctrlSingle.header).first = true) ∧
    (headerPasses ctrlMiddle.header = true ∧ (IngressHeader.read ctrlMiddle.header).aligned = true ∧
      (IngressHeader.read ctrlMiddle.header).classify = .class0 ∧
      (IngressHeader.read ctrlMiddle.header).did = 0) ∧
    (let s := withPort ({ upPort with held := 3, owed := 4 }.setTrain 0 .c0 .open)
     (s.port 0).link = .up ∧ (s.port 0).settings.payloadMode = .forward ∧ s.portOf 0 = some 0 ∧
     s.isUp 0 = true ∧ s.train 0 0 .c0 = .open ∧ (s.port 0).held + (s.port 0).owed < 8) ∧
    (let s := withPort ({ upPort with held := 3, owed := 5 }.setTrain 0 .c0 .open)
     (s.port 0).link = .up ∧ s.isUp 0 = true ∧ 8 ≤ (s.port 0).held + (s.port 0).owed ∧
       s.train 0 0 .c0 = .open ∧ headerPasses ctrlLast.header = true ∧
       (IngressHeader.read ctrlLast.header).aligned = true ∧
       (IngressHeader.read ctrlLast.header).classify = .class0 ∧
       (IngressHeader.read ctrlLast.header).last = true) := by
  set_option maxRecDepth 20000 in decide +kernel

theorem witness_CommandCellsEnter :
    (let s := { withPort { upPort with held := 7 } with
        cmdQueue := List.replicate 15 (cmdFor 1 []), elementUse := 31 }
     s.isUp 0 = true ∧ (s.port 0).held + (s.port 0).owed < 8 ∧ s.cmdQueue.length < 16 ∧
       s.elementUse < 32) ∧
    (let s := { withPort { upPort with held := 8 } with
        cmdQueue := List.replicate 16 (cmdFor 1 []), elementUse := 32 }
     s.isUp 0 = true ∧ 8 ≤ (s.port 0).held + (s.port 0).owed ∧ 16 ≤ s.cmdQueue.length ∧
       32 ≤ s.elementUse) := by decide +kernel

theorem witness_BidsAreJudged :
    (([⟨0, 9⟩, ⟨3, 2⟩] : List BidEntry).map fun e => e.src).Nodup ∧
    ({ valid := false, cls := .c1, did := 0, count := 1 } : BidSlot).valid = false ∧
    ({ valid := true, cls := .c0, did := 0, count := 1 } : BidSlot).cls = .c0 ∧ Cls.c1 = GClass.c1.cls ∧
    ({ valid := true, cls := .c1, did := 24, count := 255 } : BidSlot).count ≠ 0 ∧
    (withPort upPort).portOf 24 = none ∧
    (withPort upPort).portOf 1 = some 1 ∧ (withPort upPort).isUp 1 = false ∧
    (withPort upPort).portOf 0 = some 0 ∧ (withPort upPort).isUp 0 = true ∧
    bidOf 0 ((withPort upPort).bids 0 .c1) = none ∧
    bidOf 0 ((withDid { DidState.reset 0 with bids := ⟨[⟨0, 9⟩], [], []⟩ }).bids 0 .c1) ≠ none ∧
    (State.reset.isUp 0 = false ∧ (⟨.c1, 8, .unmapped⟩ : RefusalEntry) ∈ boxOf 4 ∧
      (⟨.c1, 0, .unmapped⟩ : RefusalEntry) ∉ boxOf 4 ∧ 4 ≤ (boxOf 4).length ∧ (boxOf 3).length < 4) := by
  decide +kernel

theorem witness_DataIsAccounted :
    (cell0 true false).first = true ∧ (withPort (upPort.setTrain 0 .c1 .open)).train 0 0 GClass.c1.cls = .open ∧
    (let s := (withDid { DidState.reset 0 with usage := ⟨⟨0, 3⟩, ⟨0, 0⟩, ⟨0, 0⟩⟩ }).setGrant 0 0 .c1
        (some ⟨1, none⟩)
     s.grant 0 0 .c1 = some ⟨1, none⟩ ∧ 1 ≤ (s.usage 0 .c1).reserved) ∧
    ((withPort upPort).grant 0 0 .c1 = none ∧ 1 ≤ (withPort upPort).allowance 0 .c1 ∧
      (((withPort upPort).bids 0 .c1).map fun e => e.src).Nodup) ∧
    (let s := withDid { DidState.reset 0 with usage := ⟨⟨12064, 0⟩, ⟨0, 0⟩, ⟨0, 0⟩⟩ }
     s.grant 0 0 .c1 = none ∧ s.allowance 0 .c1 = 0 ∧ (s.bids 0 .c1).length = 0 ∧
       (cell0 false true).last = true ∧ (cell0 false true).first = false) := by decide +kernel

theorem witness_TrainsFollowTheirTable :
    (cell0 false true).first = false ∧ (withPort upPort).train 0 0 GClass.c1.cls = .idle ∧
    (let s := { withPort (upPort.setTrain 0 .c1 .broken) with markerUse := 63 }
     s.train 0 0 GClass.c1.cls = .broken ∧ (cell0 false true).last = true ∧ s.markerUse < 64) ∧
    (let s := { withPort (upPort.setTrain 0 .c1 .broken) with markerUse := 64 }
     s.train 0 0 GClass.c1.cls = .broken ∧ 64 ≤ s.markerUse) ∧
    (cell0 true true).first = true ∧
    (withPort (upPort.setTrain 0 .c1 .open)).train 0 0 GClass.c1.cls = .open ∧
    (let s := withPort ({ upPort with held := 3, owed := 4 }.setTrain 0 .c0 .broken)
     s.train 0 0 .c0 = .broken ∧ (s.port 0).held + (s.port 0).owed < 8 ∧ s.isUp 0 = true) := by decide +kernel

/-- Single cells with count 127 and no bid slot: DATA of class 1 for DID 0, MDATA of class 1 for group 0, and a
command. -/
def dataSingle : RawCell := ⟨headerOf 0x2F 0xA3, zeroPayload⟩
def mdataSingle : RawCell := ⟨headerOf 0x4F 0xE2, zeroPayload⟩
def commandSingle : RawCell := ⟨#v[0x67, 8, 0, 0x7F, 0, 0, 0, 0, 0, 0, 0, 0, 0, 0xF0, 0x0A, 0xAE], zeroPayload⟩

theorem witness_ArrivalsTakeTheirPath :
    (∀ c ∈ [fillAligned, bidMark, ctrlSingle, dataSingle, mdataSingle, commandSingle],
      headerPasses c.header = true ∧ (IngressHeader.read c.header).aligned = true) ∧
    [ctrlSingle, dataSingle, mdataSingle, commandSingle].map (fun c => (IngressHeader.read c.header).classify) =
      [.class0, .unicast .c1, .multicast .c1, .command] ∧
    (IngressHeader.read ctrlSingle.header).did = 0 ∧ (IngressHeader.read fillAligned.header).kind = .fill ∧
    ((withPort upPort).port 0).link = .up ∧ (withPort upPort).portOf 0 = some 0 ∧
    (withPort upPort).isUp 0 = true ∧
    (withDid { DidState.reset 0 with map := .unmapped }).portOf 0 = none ∧
    (withDid { DidState.reset 0 with map := .mapped 1 }).isUp 1 = false := by
  set_option maxRecDepth 20000 in decide +kernel

/-- A state whose queue (0, 1) stands at the multicast queue limit. -/
def pruning : State := withDid { DidState.reset 0 with mcRefs := ⟨256, 0, 0⟩ }

theorem witness_MulticastCellsAreStoredOnce :
    (3 : DidSet) ≠ 0 ∧ { State.reset with poolUse := 2048 }.poolSize ≤ { State.reset with poolUse := 2048 }.poolUse ∧
    pruning.poolUse < pruning.poolSize ∧ (pruning.classes.get .c1).mcLimit = 256 ∧
    (∀ d : Did, DidSet.has 1 d = true → 256 ≤ (pruning.did d).mcRefs.get .c1) ∧
    (∀ d : Did, DidSet.has 0 d = true → 256 ≤ (State.reset.did d).mcRefs.get .c1) ∧
    DidSet.has 3 1 = true ∧ (pruning.did 1).mcRefs.get .c1 < 256 ∧ DidSet.has 3 0 = true ∧
    256 ≤ (pruning.did 0).mcRefs.get .c1 ∧
    (let s : State := { State.reset.setMcTrain 0 .c1 ⟨.open, 3⟩ with groups := State.reset.groups.set 2 ⟨true, 3, false⟩ }
     let first := IngressHeader.read #v[0x4D, 0, 2, 0, 0, 0, 0, 0, 0, 0, 0, 0, 0, 0, 0, 0]
     let later := IngressHeader.read #v[0x49, 0, 2, 0, 0, 0, 0, 0, 0, 0, 0, 0, 0, 0, 0, 0]
     first.first = true ∧ s.groups[first.group].valid = true ∧ later.first = false ∧ (s.mcTrain 0 .c1).state = .open ∧
     ∀ d : Did, (3 : DidSet).getLsbD d.val = true ↔ (s.mcTrain 0 .c1).snapshot.getLsbD d.val = true) := by
  decide +kernel

/-- A valid group of DIDs 0 and 1, both mapped to port 0, and a full queue limit for DID 0. -/
theorem witness_MulticastTrainsFollowTheirTable :
    let g : Group := ⟨true, 3, false⟩
    let s : State := { (pruning.updDid 1 fun D => { D with map := .mapped 0 }) with
        groups := State.reset.groups.set 2 g }
    s.groups[(2 : GroupId)] = g ∧ (State.reset.groups[(2 : GroupId)]).valid = false ∧
    (∀ d : Did, DidSet.has 3 d = true ↔ DidSet.has g.members d = true ∧ s.reachable d = true ∧
      ¬ (g.excludeSource = true ∧ s.mapsTo d 0 = true)) ∧
    (∀ d : Did, DidSet.has 2 d = true ↔
      DidSet.has 3 d = true ∧ (s.did d).mcRefs.get .c1 < (s.classes.get .c1).mcLimit) ∧
    ¬ ((3 : DidSet) ≠ 0 ∧ s.poolSize ≤ s.poolUse) ∧
    { State.reset with poolUse := 2048 }.poolSize ≤ { State.reset with poolUse := 2048 }.poolUse ∧
    (s.mcTrain 0 .c1).state = .idle ∧ (s.setMcTrain 0 .c1 ⟨.broken, 3⟩).mcTrain 0 .c1 = ⟨.broken, 3⟩ ∧
    (s.setMcTrain 0 .c1 ⟨.open, 3⟩).mcTrain 0 .c1 = ⟨.open, 3⟩ := by decide +kernel

/-! ### Witnesses: grants, markers and moves -/

/-- Two bids for (0, 1): port 1 is served in full, port 0 asks for 5. -/
def bidding : State :=
  (withDid { DidState.reset 0 with bids := ⟨[⟨1, 3⟩, ⟨0, 5⟩], [], []⟩ }).setGrant 1 0 .c1 (some ⟨3, none⟩)

theorem witness_GrantsAreIssued :
    (bidding.did 0).map = .mapped 0 ∧ bidding.isUp 0 = true ∧ 1 ≤ bidding.allowance 0 .c1 ∧
    1 ≤ (bidding.classes.get .c1).grantMax ∧ bidding.bids 0 .c1 = [⟨1, 3⟩] ++ ⟨0, 5⟩ :: [] ∧
    ((bidding.bids 0 .c1).map fun x => x.src).Nodup ∧ bidding.grant 1 0 .c1 = some ⟨3, none⟩ ∧
    bidding.grant 0 0 .c1 = none ∧ ¬ 1 ≤ 3 - 3 ∧ 1 ≤ 5 - 0 ∧ (bidding.port 0).grantOutbox.length < 8 ∧
    5 = min (5 - 0) (min (bidding.classes.get .c1).grantMax (bidding.allowance 0 .c1)) := by decide +kernel

/-- Each part of the issue condition that can fail: the DID MOVING, its port not UP, an allowance of 0, no bid. -/
theorem witness_GrantsAreIssued_not :
    (∀ p, ((withDid { DidState.reset 0 with map := .moving 0 1 500 0 }).did 0).map ≠ .mapped p) ∧
    (State.reset.did 0).map = .mapped 0 ∧ State.reset.isUp 0 = false ∧
    (withDid { DidState.reset 0 with usage := ⟨⟨12064, 0⟩, ⟨0, 0⟩, ⟨0, 0⟩⟩ }).allowance 0 .c1 = 0 ∧
    (withPort upPort).bids 0 .c1 = [] := by
  refine ⟨fun p => ?_, by decide +kernel⟩
  simp [withDid]

theorem witness_GrantsExpire :
    ((withPort upPort).setGrant 0 0 .c1 (some ⟨3, some 40⟩)).grant 0 0 .c1 = some ⟨3, some 40⟩ ∧
    ((withPort upPort).setGrant 0 0 .c1 (some ⟨3, none⟩)).grant 0 0 .c1 = some ⟨3, none⟩ ∧
    (withPort upPort).grant 0 0 .c1 = none := by decide +kernel

theorem witness_OwedMarkersAreServed :
    let gone : List MarkerKey := [⟨0, 5, .c1, false⟩]
    let k : MarkerKey := ⟨2, 0, .c1, true⟩
    let s : State := { withPort upPort with markerUse := 63, owedMarkers := gone }
    let t : State := { withPort upPort with markerUse := 63, owedMarkers := gone ++ k :: [] }
    s.markerUse < 64 ∧ (∀ x ∈ gone, s.reachable x.did = false) ∧ s.owedMarkers = gone ∧
    t.markerUse < 64 ∧ (∀ x ∈ gone, t.reachable x.did = false) ∧ t.owedMarkers = gone ++ k :: [] ∧
    t.reachable k.did = true ∧ (gone ++ k :: []).Nodup := by decide +kernel

/-- DID 0 MOVING from port 0 to port 1, which is not UP. -/
def moving : State := withDid { DidState.reset 0 with map := .moving 0 1 500 0 }

theorem witness_DrainedMovesCutOver :
    (moving.did 0).map = .moving 0 1 500 0 ∧ moving.drained 0 = true ∧ moving.isUp 1 = false ∧
    (withDid { DidState.reset 0 with map := .moving 1 0 500 0 }).drained 0 = true ∧
    (withPort upPort).isUp 0 = true ∧
    (withDid { DidState.reset 0 with map := .moving 0 1 500 0, queues := ⟨[], [.mark 3 false], [], []⟩ }).drained 0
      = false ∧
    ((withPort upPort).did 0).map.isMoving = false ∧
    (let s := moving.setBids 0 .c2 [⟨0, 7⟩]
     s.drained 0 = true ∧ s.isUp 1 = false ∧ bidOf 0 (s.bids 0 .c2) ≠ none ∧ s.isUp 0 = true ∧
     ∀ c ∈ GClass.all, ((s.bids 0 c).map fun e => e.src).Nodup) := by decide +kernel

/-- The slot that takes the last entry of a MOVING DID cuts it over (R148). -/
theorem test_last_entry_cuts_over :
    (match exec (.slot 0) (withDid { DidState.reset 0 with
        map := .moving 0 1 500 0, queues := ⟨[], [.mark 3 true], [], []⟩ }) with
     | .next t => decide ((t.did 0).map = .mapped 1 ∧ (t.did 0).lastMove = .drained)
     | _ => false) = true := by decide +kernel

theorem witness_DeadlinesForceMoves :
    (moving.did 0).map = .moving 0 1 500 0 ∧ moving.isUp 1 = false ∧
    ((withDid { DidState.reset 0 with map := .moving 1 0 500 0 }).did 0).map = .moving 1 0 500 0 ∧
    (withDid { DidState.reset 0 with map := .moving 1 0 500 0 }).isUp 0 = true ∧
    ((withPort upPort).did 0).map.isMoving = false ∧
    (let s := (moving.setBids 0 .c2 [⟨0, 7⟩]).setGrant 0 0 .c2 (some ⟨3, some 40⟩)
     s.grant 0 0 .c2 ≠ none ∧ ∀ c ∈ GClass.all, ((s.bids 0 c).map fun e => e.src).Nodup) ∧
    (let s : State := { (moving.updDid 0 fun D => { D with queues := ⟨[], [.mark 3 true], [], []⟩ }).updDid 1
        fun D => { D with map := .mapped 0 } with markerUse := 64, owedMarkers := [⟨2, 1, .c1, false⟩] }
     (∀ k ∈ s.owedMarkers, k.did ≠ 0 ∧ s.reachable k.did = true) ∧ s.markerUse ≤ 64 ∧ (s.did 0).marks = 1) ∧
    (let s := moving.setQueue 0 .c0 [.cell (cell0 true true)]
     1 = (s.queue 0 .c0).countP (QEntry.isFrom 0) ∧ 1 ≤ (s.port 0).held ∧ s.isUp 0 = true) := by
  decide +kernel

theorem witness_HeldResponsesAreOffered :
    (let s := { withPort upPort with cmdUnit := .holding 0 (cmdFor 1 []).frame, elementUse := 31 }
     s.cmdUnit = .holding 0 (cmdFor 1 []).frame ∧ s.isUp 0 = true ∧ s.elementUse < 32) ∧
    (let s := { withPort upPort with cmdUnit := .holding 0 (cmdFor 1 []).frame, elementUse := 32 }
     s.isUp 0 = true ∧ 32 ≤ s.elementUse ∧ 0 < 1 ∧ 1 ≤ s.elementUse ∧ s.elementUse - 1 < 32) ∧
    State.reset.isUp 0 = false ∧ State.reset.cmdUnit = .ready ∧ State.reset.cmdQueue = [] ∧
    (let s := readyOn State.reset 0x01 []
     s.cmdQueue = cmdFor 0x01 [] :: [] ∧ (cmdFor 0x01 []).reading = some .identify ∧
     (cmdFor 0x01 []).reading ≠ some .portSet) := by
  decide +kernel

/-- A command is ready while the allowance is full, and from a port that is not UP. -/
theorem witness_ready_everywhere :
    (let s := commandOn State.reset upPort 32 0x01 []
     Ready s (cmdFor 0x01 []) [] (some .identify) ∧ (s.port 0).link = .up ∧ s.elementUse = 32) ∧
    (let s := commandOn State.reset { upPort with link := .waiting } 0 0x01 []
     Ready s (cmdFor 0x01 []) [] (some .identify) ∧ (s.port 0).link ≠ .up) :=
  ⟨⟨commandOn_ready _ _ _ _ _ _ rfl rfl (by decide), by decide +kernel⟩,
    commandOn_ready _ _ _ _ _ _ rfl rfl (by decide), by decide +kernel⟩

/-- A command met by a full allowance has its effect, and its response is held (R159). -/
theorem test_full_allowance_holds_the_response :
    (match exec .linesSet (commandOn State.reset upPort 32 0x12 [4, 0]) with
     | .next t => decide (t.status0 = .mcHold ∧
         t.cmdUnit = .holding 0 (responseFrame (cmdFor 0x12 [4, 0]).frame .done []))
     | _ => false) = true := by decide +kernel

/-! ### Witnesses: notices -/

theorem witness_NoticesFollowTheirConditions :
    ((withPort upPort).port 0).conditions = ((withPort upPort).port 0).conditions ∧
    ((withPort upPort).port 0).conditions ≠ (State.reset.port 0).conditions ∧
    (withPort { upPort with noticeFlag := true }).noticePending = true ∧
    (noticeStep State.reset State.reset).noticePending = false ∧ State.reset.noticePending = false ∧
    (noticeStep State.reset (withDid { DidState.reset 0 with moveDone := true })).noticePending = true ∧
    (let s := withPort { upPort with watchMask := 1, watchExpect := 1, quality := ⟨40, false⟩ }
     (s.port 0).watchMatch = true ∧
     ∃ t, exec (.qualityCompletion 0 5) s = .next t ∧ (t.port 0).watchMatch = false) ∧
    (let s := (withPort { upPort with noticeFlag := true }).updDid 0 fun D => { D with moveDone := true }
     (s.port 0).noticeFlag = true ∧ (s.did 0).moveDone = true ∧ ∃ t, exec (.slot 0) s = .next t) := by
  refine ⟨by decide +kernel, by decide +kernel, by decide +kernel, by decide +kernel, by decide +kernel,
    by decide +kernel, ⟨by decide +kernel, _, rfl, by decide +kernel⟩, by decide +kernel, by decide +kernel, _, rfl⟩

/-- FABRIC-RESET takes down a port watched for up, and its notice flag is set (R174). -/
theorem test_fabric_reset_sets_the_flag :
    (match exec .fabricReset (readyOn (State.reset.updPort 1 fun _ =>
        { upPort with watchMask := 1, watchExpect := 1 }) 0x13 []) with
     | .next t => (t.port 1).noticeFlag
     | _ => false) = true := by decide +kernel

/-! ### Witnesses: commands -/

/-- The command at the head of the queue of `readyOn` is read as the code its byte names. -/
theorem readings :
    (([0x01, 0x02, 0x03, 0x04, 0x05, 0x06, 0x07, 0x08, 0x09, 0x0A, 0x0B, 0x0C, 0x0D, 0x0E, 0x0F, 0x10, 0x11,
       0x12, 0x13, 0x7F] : List Byte).map fun b => (cmdFor b []).reading) =
      [some .identify, some .portSet, some .portGet, some .classSet, some .poolSet, some .lifetimeSet,
       some .mapSet, some .mapMove, some .mapGet, some .groupSet, some .groupGet, some .noticeExpect,
       some .noticeRead, some .countersRead, some .testStart, some .testStop, some .testRead,
       some .linesSet, some .fabricReset, none] := by decide +kernel

/-- What a command is read as does not depend on its parameter words. -/
theorem reading_of_words (code : Byte) (words : List Word) :
    (cmdFor code words).reading = (cmdFor code []).reading := by
  simp [CmdCell.reading, cmdFor, Frame.make, Frame.code, Frame.count]

theorem witness_IdentifyAndLinesSet :
    Ready (readyOn State.reset 0x01 []) (cmdFor 0x01 []) [] (some .identify) ∧
    Ready (readyOn State.reset 0x12 [4, 0]) (cmdFor 0x12 [4, 0]) [] (some .linesSet) ∧
    ((cmdFor 0x12 [4, 0]).param 1).toNat = (4 : Fin 5).val ∧
    ((cmdFor 0x12 [4, 0]).param 2).toNat = (0 : Fin 5).val ∧
    Ready (readyOn State.reset 0x12 [5, 0]) (cmdFor 0x12 [5, 0]) [] (some .linesSet) ∧
    4 < ((cmdFor 0x12 [5, 0]).param 1).toNat :=
  ⟨readyOn_ready _ _ _ _ (by decide +kernel), readyOn_ready _ _ _ _ (by decide +kernel), by decide +kernel,
    by decide +kernel, readyOn_ready _ _ _ _ rfl, by decide +kernel⟩

/-- A PORT-SET of port 1 that names every setting, with a cadence of 16 slots. -/
def setAll : List Word := [1, 0xFFF, 1, 0, 1, 1, 0, 256, 64, 6, 5, 16, 0xFFFF, 0, 1]

theorem witness_PortSetChangesTheNamed :
    Ready (readyOn State.reset 0x02 setAll) (cmdFor 0x02 setAll) [] (some .portSet) ∧
    (let s := readyOn State.reset 0x02 setAll
     let cmd := cmdFor 0x02 setAll
     (cmd.param 1).toNat = (1 : PortId).val ∧ (s.port 1).link ≠ .up ∧
     (cmd.param 2).getLsbD 9 = true ∧ 1 ≤ (cmd.param 12).toNat ∧ (cmd.param 12).toNat ≤ 16 ∧
     (cmd.param 2).getLsbD 11 = true ∧ cmd.param 15 ≠ 0 ∧
     (allPorts.filter fun q => (s.port q).settings.report && !decide (q = 1)).length < 2) ∧
    (let s := readyOn (State.reset.updPort 1 fun _ => { Port.reset with link := .test }) 0x02 [1, 1, 0]
     Ready s (cmdFor 0x02 [1, 1, 0]) [] (some .portSet) ∧ (s.port 1).link = .test ∧
     (s.port 1).settings.enable = true ∧ (cmdFor 0x02 [1, 1, 0]).param 3 = 0) :=
  ⟨readyOn_ready _ _ _ _ (by decide +kernel), by decide +kernel, readyOn_ready _ _ _ _ (by decide +kernel),
    by decide +kernel⟩

theorem witness_LockoutKeepsTheLastCommander :
    Ready (readyOn State.reset 0x02 [0, 1, 0]) (cmdFor 0x02 [0, 1, 0]) [] (some .portSet) ∧
    (let s := readyOn State.reset 0x02 [0, 1, 0]
     let cmd := cmdFor 0x02 [0, 1, 0]
     (cmd.param 1).toNat = (0 : PortId).val ∧ (s.port 0).link = .up ∧
     (s.port 0).settings.mayCommand = true ∧
     (∀ q, q ≠ 0 → (s.port q).link = .up → (s.port q).settings.mayCommand = false) ∧
     (((cmd.param 2).getLsbD 0 && decide (cmd.param 3 = 0)) ||
       ((cmd.param 2).getLsbD 10 && decide (cmd.param 14 = 0))) = true) ∧
    Ready (readyOn State.reset 0x0F [0, 4, 4, 0, 0, 3]) (cmdFor 0x0F [0, 4, 4, 0, 0, 3]) []
      (some .testStart) ∧
    (let cmd := cmdFor 0x0F [0, 4, 4, 0, 0, 3]
     (cmd.param 1).toNat = (0 : PortId).val ∧ (cmd.param 2).toNat ≤ 4 ∧ (cmd.param 3).toNat ≤ 4 ∧
     (cmd.param 6).toNat ≤ 3) :=
  ⟨readyOn_ready _ _ _ _ (by decide +kernel), by decide +kernel,
    readyOn_ready _ _ _ _ (by decide +kernel), by decide +kernel⟩

theorem witness_PortGetReports :
    Ready (readyOn State.reset 0x03 [23]) (cmdFor 0x03 [23]) [] (some .portGet) ∧
    (let P := (readyOn State.reset 0x03 [23]).port 23
     ((cmdFor 0x03 [23]).param 1).toNat = (23 : PortId).val ∧
     [LinkState.disabled, .acquiring, .waiting, .up, .faulted, .test][1]? = some P.link ∧
     [DownCause.none, .headerLoss, .partner, .slip, .fault, .test, .disable, .fabricReset][0]? =
       some P.lastDown ∧ P.settings.cadence.length ≤ 16) :=
  ⟨readyOn_ready _ _ _ _ (by decide +kernel), by decide +kernel⟩

/-- The class settings CLASS-SET takes from words 1 to 12. -/
def classGiven (cmd : CmdCell) (i : Nat) : ClassSettings :=
  { grantMax := max 1 (min 64 (cmd.param (4 * i + 1)).toNat),
    exponent := max (-3) (min 3 (cmd.param (4 * i + 2)).toInt),
    weight := max 1 (min 15 (cmd.param (4 * i + 3)).toNat),
    mcLimit := min 1024 (cmd.param (4 * i + 4)).toNat }

theorem witness_ClassAndLifetimeSet :
    Ready (readyOn State.reset 0x04 [65, 3, 8, 256, 1, 0, 15, 0, 64, 0xFFFFFFFD, 1, 1024])
      (cmdFor 0x04 [65, 3, 8, 256, 1, 0, 15, 0, 64, 0xFFFFFFFD, 1, 1024]) [] (some .classSet) ∧
    (let cmd := cmdFor 0x04 [65, 3, 8, 256, 1, 0, 15, 0, 64, 0xFFFFFFFD, 1, 1024]
     (∃ i, i < 3 ∧ ((classGiven cmd i).grantMax ≠ (cmd.param (4 * i + 1)).toNat ∨
       (classGiven cmd i).exponent ≠ (cmd.param (4 * i + 2)).toInt ∨
       (classGiven cmd i).weight ≠ (cmd.param (4 * i + 3)).toNat ∨
       (classGiven cmd i).mcLimit ≠ (cmd.param (4 * i + 4)).toNat)) ∧
     (classGiven cmd 2).exponent = -3) ∧
    Ready (readyOn State.reset 0x06 [250]) (cmdFor 0x06 [250]) [] (some .lifetimeSet) :=
  ⟨readyOn_ready _ _ _ _ (by decide +kernel),
    ⟨⟨0, by decide, .inl (by decide +kernel)⟩, by decide +kernel⟩,
    readyOn_ready _ _ _ _ (by decide +kernel)⟩

/-- POOL-SET words with a multicast pool size and one floor in every half word. -/
def poolWords (pool : Word) (floors : Word) : List Word := [pool, 192, 384] ++ List.replicate 16 floors

/-- The floor a POOL-SET gives DID `d`, clamped, as the statement writes it. -/
def floorGiven (cmd : CmdCell) (d : Did) : Nat :=
  min 512 (if d.val % 2 = 0 then (cmd.param (4 + d.val / 2)).toNat / 2 ^ 16
    else (cmd.param (4 + d.val / 2)).toNat % 2 ^ 16)

/-- Shared pools of 1024, just accepted, and of 960, just refused: 16096 - pool - 32 x 215 or 217. -/
theorem witness_PoolSetIsJudged :
    (∀ floors pool, Ready (readyOn State.reset 0x05 (poolWords pool floors))
      (cmdFor 0x05 (poolWords pool floors)) [] (some .poolSet)) ∧
    (let cmd := cmdFor 0x05 (poolWords 8192 0x00D700D7)
     (16384 - 224 - 64 - (8192 : Int) - ((allDids.map (floorGiven cmd)).sum : Int)) = 1024) ∧
    (let cmd := cmdFor 0x05 (poolWords 8192 0x00D900D9)
     (16384 - 224 - 64 - (8192 : Int) - ((allDids.map (floorGiven cmd)).sum : Int)) < 1024) ∧
    (let cmd := cmdFor 0x05 (poolWords 64 0)
     min ((cmd.param 1).toNat / 64 * 64) 8192 = 64 ∧
     64 < { State.reset with poolUse := 65 }.poolUse ∧
     (1024 : Int) ≤ 16384 - 224 - 64 - (64 : Int) - ((allDids.map (floorGiven cmd)).sum : Int)) :=
  ⟨fun _ _ => readyOn_ready _ _ _ _ ((reading_of_words _ _).trans rfl), by decide +kernel⟩

theorem witness_MapSetNeedsAnIdleDid :
    Ready (readyOn State.reset 0x07 [0, 0]) (cmdFor 0x07 [0, 0]) [] (some .mapSet) ∧
    Ready (readyOn State.reset 0x07 [0, 1, 23]) (cmdFor 0x07 [0, 1, 23]) [] (some .mapSet) ∧
    (cmdFor 0x07 [0, 0]).param 2 = 0 ∧ (cmdFor 0x07 [0, 1, 23]).param 2 ≠ 0 ∧
    ((cmdFor 0x07 [0, 1, 23]).param 3).toNat = (23 : PortId).val ∧
    ((cmdFor 0x07 [0, 0]).param 1).toNat = (0 : Did).val ∧
    ((readyOn moving 0x07 [0, 0]).did 0).map.isMoving = true ∧
    (let s := readyOn (withDid { DidState.reset 0 with queues := ⟨[], [.mark 3 false], [], []⟩ }) 0x07 [0, 0]
     (s.did 0).map.isMoving = false ∧ s.drained 0 = false) ∧
    (let s := readyOn State.reset 0x07 [0, 0]
     (s.did 0).map.isMoving = false ∧ s.drained 0 = true ∧ s.isUp 0 = true ∧ s.isUp 23 = false) ∧
    (let s := (readyOn State.reset 0x07 [0, 0]).setBids 0 .c1 [⟨0, 4⟩]
     s.drained 0 = true ∧ bidOf 0 (s.bids 0 .c1) ≠ none ∧
     ∀ c ∈ GClass.all, ((s.bids 0 c).map fun e => e.src).Nodup) :=
  ⟨readyOn_ready _ _ _ _ rfl, readyOn_ready _ _ _ _ rfl, by decide +kernel⟩

theorem witness_MapMoveStartsAMove :
    (∀ s, Ready (readyOn s 0x08 [0, 1, 4]) (cmdFor 0x08 [0, 1, 4]) [] (some .mapMove)) ∧
    ((cmdFor 0x08 [0, 1, 4]).param 1).toNat = (0 : Did).val ∧
    ((cmdFor 0x08 [0, 1, 4]).param 2).toNat = (1 : PortId).val ∧
    3 < ((cmdFor 0x08 [0, 1, 4]).param 3).toNat ∧
    ((readyOn (withDid { DidState.reset 0 with map := .unmapped }) 0x08 []).did 0).map = .unmapped ∧
    ((readyOn moving 0x08 []).did 0).map.isMoving = true ∧
    (let s := readyOn (withDid { DidState.reset 0 with queues := ⟨[], [.mark 3 false], [], []⟩ }) 0x08 []
     (s.did 0).map = .mapped 0 ∧ (1 : PortId) ≠ 0 ∧ s.drained 0 = false) ∧
    (let s := readyOn State.reset 0x08 []
     (s.did 0).map = .mapped 0 ∧ s.drained 0 = true ∧ (decide ((1 : PortId) = 0) || s.isUp 1) = false) ∧
    (let s := readyOn (State.reset.updPort 1 fun _ => upPort) 0x08 []
     (s.did 0).map = .mapped 0 ∧ s.drained 0 = true ∧ (decide ((1 : PortId) = 0) || s.isUp 1) = true) :=
  ⟨fun _ => readyOn_ready _ _ _ _ rfl, by decide +kernel⟩

theorem witness_MapGetReports :
    Ready (readyOn moving 0x09 [0]) (cmdFor 0x09 [0]) [] (some .mapGet) ∧
    ((cmdFor 0x09 [0]).param 1).toNat = (0 : Did).val ∧
    [MoveResult.none, .drained, .forced, .interrupted][0]? =
      some ((readyOn moving 0x09 [0]).did 0).lastMove ∧
    (let s := (readyOn moving 0x09 [0]).setQueue 0 .c3 [.mark 2 false]
     s.queue 0 .c3 ≠ [] ∧ (∀ p, ∀ c ∈ GClass.all, s.grant p 0 c = none) ∧
     (∀ p : PortId, ∀ e ∈ (s.port p).grantOutbox, e.did ≠ 0) ∧ s.owedMarkers = []) :=
  ⟨readyOn_ready _ _ _ _ rfl, by decide +kernel⟩

theorem witness_GroupsAndCountersAreRead :
    Ready (readyOn State.reset 0x0A [511, 1, 3, 1]) (cmdFor 0x0A [511, 1, 3, 1]) [] (some .groupSet) ∧
    Ready (readyOn State.reset 0x0B [511]) (cmdFor 0x0B [511]) [] (some .groupGet) ∧
    (∀ words, Ready (readyOn State.reset 0x0E words) (cmdFor 0x0E words) [] (some .countersRead)) ∧
    ((cmdFor 0x0A [511, 1, 3, 1]).param 1).toNat = (511 : GroupId).val ∧
    ((cmdFor 0x0B [511]).param 1).toNat = (511 : GroupId).val ∧
    (([[0, 23, 1], [1, 31, 1], [2, 0, 0], [3, 0, 0], [0, 24, 0], [1, 32, 0]] : List (List Word)).map fun w =>
      (((cmdFor 0x0E w).param 1).toNat, ((cmdFor 0x0E w).param 2).toNat)) =
        [(0, (23 : PortId).val), (1, (31 : Did).val), (2, 0), (3, 0), (0, 24), (1, 32)] :=
  ⟨readyOn_ready _ _ _ _ rfl, readyOn_ready _ _ _ _ rfl,
    fun _ => readyOn_ready _ _ _ _ ((reading_of_words _ _).trans rfl), by decide +kernel⟩

theorem witness_NoticesAreExpectedAndRead :
    (Ready (readyOn State.reset 0x0C [23, 31, 1]) (cmdFor 0x0C [23, 31, 1]) [] (some .noticeExpect) ∧
      ((cmdFor 0x0C [23, 31, 1]).param 1).toNat = (23 : PortId).val ∧
      ∀ i : Fin 5, (31#5).getLsbD i = ((cmdFor 0x0C [23, 31, 1]).param 2).getLsbD i ∧
        (1#5).getLsbD i = ((cmdFor 0x0C [23, 31, 1]).param 3).getLsbD i) ∧
    (let s := readyOn ((State.reset.updPort 23 fun P => { P with noticeFlag := true }).updDid 31 fun D =>
        { D with moveDone := true }) 0x0D []
     Ready s (cmdFor 0x0D []) [] (some .noticeRead) ∧
     (∀ i : Fin 32, (0x00800000#32).getLsbD i =
       decide (∃ p : PortId, p.val = i.val ∧ (s.port p).noticeFlag = true)) ∧
     ∀ d : Did, (0x80000000#32).getLsbD d.val = (s.did d).moveDone) :=
  ⟨⟨readyOn_ready _ _ _ _ rfl, by decide +kernel⟩, readyOn_ready _ _ _ _ rfl, by decide +kernel⟩

theorem witness_TestsStartAndStop :
    (let words : List Word := [1, 4, 4, 1, 0, 3, 1, 2, 3]
     Ready (readyOn State.reset 0x0F words) (cmdFor 0x0F words) [] (some .testStart) ∧
     ((cmdFor 0x0F words).param 1).toNat = (1 : PortId).val ∧
     [Pattern.off, .p7, .p23, .p31, .user][((cmdFor 0x0F words).param 2).toNat]? = some .user ∧
     [Pattern.off, .p7, .p23, .p31, .user][((cmdFor 0x0F words).param 3).toNat]? = some .user ∧
     [Timebase.continuous, .bits24, .bits32, .bits40][((cmdFor 0x0F words).param 6).toNat]? =
       some .bits40 ∧
     ((readyOn State.reset 0x0F words).port 1).link ≠ .up) ∧
    (let s := readyOn (State.reset.updPort 1 fun P => { P with link := .test }) 0x10 [1]
     Ready s (cmdFor 0x10 [1]) [] (some .testStop) ∧
     ((cmdFor 0x10 [1]).param 1).toNat = (1 : PortId).val ∧ (s.port 1).link = .test) ∧
    Ready (readyOn State.reset 0x10 [1]) (cmdFor 0x10 [1]) [] (some .testStop) ∧
    ((readyOn State.reset 0x10 [1]).port 1).link ≠ .test ∧
    Ready (readyOn State.reset 0x0F [1, 5, 4, 0, 0, 4]) (cmdFor 0x0F [1, 5, 4, 0, 0, 4]) [] (some .testStart) ∧
    4 < ((cmdFor 0x0F [1, 5, 4, 0, 0, 4]).param 2).toNat ∧
    3 < ((cmdFor 0x0F [1, 5, 4, 0, 0, 4]).param 6).toNat :=
  ⟨⟨readyOn_ready _ _ _ _ rfl, by decide +kernel⟩, ⟨readyOn_ready _ _ _ _ rfl, by decide +kernel⟩,
    readyOn_ready _ _ _ _ rfl, by decide +kernel, readyOn_ready _ _ _ _ rfl, by decide +kernel⟩

theorem witness_TestReadAndShortForm :
    Ready (readyOn State.reset 0x11 [23]) (cmdFor 0x11 [23]) [] (some .testRead) ∧
    ((cmdFor 0x11 [23]).param 1).toNat = (23 : PortId).val ∧ 507904 ≤ 507904 ∧ 507904 < 507905 :=
  ⟨readyOn_ready _ _ _ _ rfl, by decide +kernel⟩

theorem witness_RefusedCommandsChangeNothing :
    (∀ code words want, (cmdFor code []).reading = want →
      Ready (readyOn State.reset code words) (cmdFor code words) [] want) ∧
    (([0x7F, 0x02, 0x07, 0x08, 0x09, 0x0B] : List Byte).map fun b => (cmdFor b []).reading) =
      [none, some .portSet, some .mapSet, some .mapMove, some .mapGet, some .groupGet] ∧
    (let P : Port := { upPort with settings := { Settings.reset with mayCommand := false } }
     let s (b : Byte) : State := { withPort P with cmdQueue := [cmdFor b []], elementUse := 31 }
     (s 1).cmdUnit = .ready ∧ (s 1).cmdQueue = [cmdFor 0x01 []] ∧ (cmdFor 0x01 []).reading = some .identify ∧
     (s 0x7F).cmdQueue = [cmdFor 0x7F []] ∧ ((s 1).port 0).settings.mayCommand = false ∧
     1 ≤ ((s 1).port 0).held) ∧
    (23 < ((cmdFor 0x02 [24]).param 1).toNat ∧ 31 < ((cmdFor 0x09 [32]).param 1).toNat ∧
      511 < ((cmdFor 0x0B [512]).param 1).toNat ∧ (cmdFor 0x07 [0, 1, 24]).param 2 ≠ 0 ∧
      23 < ((cmdFor 0x07 [0, 1, 24]).param 3).toNat ∧ 23 < ((cmdFor 0x08 [0, 24]).param 2).toNat) ∧
    (let cmd := cmdFor 0x02 [0, 0x200, 0, 0, 0, 0, 0, 0, 0, 0, 0, 17]
     (cmd.param 1).toNat = (0 : PortId).val ∧ (cmd.param 2).getLsbD 0 = false ∧ (cmd.param 2).getLsbD 10 = false ∧
     (cmd.param 2).getLsbD 9 = true ∧ 16 < (cmd.param 12).toNat) ∧
    (let words : List Word := [0, 0x800, 0, 0, 0, 0, 0, 0, 0, 0, 0, 0, 0, 0, 1]
     let reports : Port := { Port.reset with settings := { Settings.reset with report := true } }
     let s := readyOn ((State.reset.updPort 1 fun _ => reports).updPort 2 fun _ => reports) 0x02 words
     Ready s (cmdFor 0x02 words) [] (some .portSet) ∧ ((cmdFor 0x02 words).param 2).getLsbD 0 = false ∧
     ((cmdFor 0x02 words).param 2).getLsbD 10 = false ∧ ((cmdFor 0x02 words).param 2).getLsbD 9 = false ∧
     ((cmdFor 0x02 words).param 2).getLsbD 11 = true ∧ (cmdFor 0x02 words).param 15 ≠ 0 ∧
     2 ≤ (allPorts.filter fun q => (s.port q).settings.report && !decide (q = 0)).length) ∧
    (let words : List Word := [0, 0xE01, 0, 0, 0, 0, 0, 0, 0, 0, 0, 1, 0, 0, 1]
     let reports : Port := { upPort with settings := { Settings.reset with report := true } }
     let s := readyOn ((State.reset.updPort 1 fun _ => reports).updPort 2 fun _ => reports) 0x02 words
     Ready s (cmdFor 0x02 words) [] (some .portSet) ∧ ((cmdFor 0x02 words).param 2).getLsbD 0 = true ∧
     ((cmdFor 0x02 words).param 2).getLsbD 9 = true ∧ ((cmdFor 0x02 words).param 12).toNat = 1 ∧
     (1 : PortId) ≠ 0 ∧ (s.port 1).link = .up ∧ (s.port 1).settings.mayCommand = true) :=
  ⟨fun _ _ _ h => readyOn_ready _ _ _ _ ((reading_of_words _ _).trans h), by decide +kernel, by decide +kernel,
    by decide +kernel, by decide +kernel, ⟨readyOn_ready _ _ _ _ rfl, by decide +kernel⟩,
    readyOn_ready _ _ _ _ rfl, by decide +kernel⟩

/-! ### Witnesses: link tests -/

/-- A port in TEST with a checker pattern, after the first slot of its test. -/
def testing (pattern : Pattern) (f : PatternUnit → PatternUnit) : State :=
  withPort { Port.reset with
    link := .test,
    test := f (PatternUnit.start { PatternUnit.reset.settings with chkPattern := pattern }).begin }

theorem witness_CheckersReachSync :
    (let s := testing .user fun u => { u with chkPos := 63, matchRun := 63 }
     (s.port 0).link = .test ∧ (s.port 0).test.running = true ∧ (s.port 0).test.sync = .searching ∧
     (s.port 0).test.settings.chkPattern = .user ∧ (s.port 0).test.chkPos < 64 ∧
     (s.port 0).test.matchRun < 64) ∧
    (let s := testing .p31 fun u => { u with seeded := 31, matchRun := 63 }
     (s.port 0).link = .test ∧ (s.port 0).test.running = true ∧ (s.port 0).test.sync = .searching ∧
     ((s.port 0).test.settings.chkPattern, 28, 31, 31) ∈
       [(Pattern.p7, 6, 7, 7), (.p23, 18, 23, 23), (.p31, 28, 31, 31)] ∧
     (s.port 0).test.seeded = 31 ∧ (s.port 0).test.matchRun = 63) ∧
    (let s := testing .p7 fun u => { u with seeded := 6 }
     ((s.port 0).test.settings.chkPattern, 6, 7, 7) ∈
       [(Pattern.p7, 6, 7, 7), (.p23, 18, 23, 23), (.p31, 28, 31, 31)] ∧ (s.port 0).test.seeded < 7) ∧
    (let s := testing .p7 fun u => { u with seeded := 7, matchRun := 62 }
     (s.port 0).test.seeded = 7 ∧ (s.port 0).test.matchRun < 63 ∧
     true ≠ xor ((s.port 0).test.chkReg.getLsbD 5) ((s.port 0).test.chkReg.getLsbD 6)) ∧
    (let s := testing .user fun u => { u with matchRun := 62 }
     (s.port 0).test.matchRun < 63 ∧ true ≠ (s.port 0).test.settings.user.getLsbD (s.port 0).test.chkPos) ∧
    (let s := withPort { Port.reset with link := .test, test := .start PatternUnit.reset.settings }
     (s.port 0).link = .test ∧ (s.port 0).test.running = false) ∧
    (let s := testing .off id
     (s.port 0).link = .test ∧ (s.port 0).test.running = true ∧
     (s.port 0).test.settings.chkPattern = .off) := by decide +kernel

/-- A checker in sync one bit before the end of a block. -/
def inBlock (bad run : Nat) (mask : Bool) : State :=
  testing .p7 fun u =>
    { u with sync := .inSync, syncEver := true, blockBits := 127, blockErrors := bad, badRun := run,
             settings := { u.settings with syncMask := mask } }

/-- The register starts at 0, so the bit predicted is 0: a bit 0 is good and a bit 1 is an error. -/
theorem witness_BlocksAndPeriodsEnd :
    (let s := inBlock 16 3 false
     (s.port 0).link = .test ∧ (s.port 0).test.running = true ∧ (s.port 0).test.sync = .inSync ∧
     (s.port 0).test.settings.chkPattern ≠ .off ∧ (s.port 0).test.blockBits = 127 ∧
     Pattern.p7.nextBit 0 (s.port 0).test.chkReg (s.port 0).test.chkPos = false ∧
     (s.port 0).test.blockErrors + 0 ≤ 16 ∧ 16 < (s.port 0).test.blockErrors + 1 ∧
     (s.port 0).test.badRun = 3 ∧
     ((s.port 0).test.settings.syncMask && (s.port 0).test.syncEver) = false) ∧
    (let s := testing .user fun u => { u with sync := .inSync, syncEver := true, blockBits := 126 }
     (s.port 0).test.sync = .inSync ∧ (s.port 0).test.settings.chkPattern ≠ .off ∧
     (s.port 0).test.blockBits < 127) ∧
    ((inBlock 16 2 false).port 0).test.badRun < 3 ∧
    (let s := inBlock 17 3 true
     3 ≤ (s.port 0).test.badRun ∧ ((s.port 0).test.settings.syncMask && (s.port 0).test.syncEver) = true) ∧
    (let s := testing .p7 fun u =>
        { u with settings := { u.settings with timebase := .bits24 }, progress := 2 ^ 24 - 1 }
     ((s.port 0).test.settings.timebase, 2 ^ 24) ∈
       [(Timebase.bits24, 2 ^ 24), (.bits32, 2 ^ 32), (.bits40, 2 ^ 40)] ∧
     (s.port 0).test.progress + 1 = 2 ^ 24 ∧ (s.port 0).test.progress < 2 ^ 24) ∧
    ((testing .p7 id).port 0).test.settings.timebase = .continuous ∧
    ((testing .p7 id).port 0).test.progress + 1 < 2 ^ 24 := by decide +kernel

end Sys2Proof.Tests
end

section
/-! PROOFS. What an operation keeps: views of the state that leave out what the operation may change, and one
lemma for each shared operation saying which view it keeps. -/

namespace Sys2Proof.Machine

/-! ### Writing one port twice, or equally -/

theorem State.updPort_updPort (s : State) (p : PortId) (f g : Port → Port) :
    (s.updPort p f).updPort p g = s.updPort p fun P => g (f P) := by
  simp [State.updPort]

/-- Only the image of the port as it stands counts. -/
theorem State.updPort_congr (s : State) (p : PortId) {f g : Port → Port} (h : f (s.port p) = g (s.port p)) :
    s.updPort p f = s.updPort p g := by
  unfold State.updPort
  rw [show f s.ports[p] = g s.ports[p] from h]

/-! ### Views -/

/-- A view of the state: what is looked at of each port, of each destination, and of the rest. -/
structure View where
  port : Port → Port
  did : DidState → DidState
  rest : State → State

/-- The state without its ports and destinations. -/
def State.bare (s : State) : State := { s with ports := State.reset.ports, dids := State.reset.dids }

@[simp] theorem State.updPort_bare (s : State) (p : PortId) (f : Port → Port) : (s.updPort p f).bare = s.bare := rfl

@[simp] theorem State.updDid_bare (s : State) (d : Did) (f : DidState → DidState) : (s.updDid d f).bare = s.bare := rfl

@[simp] theorem State.mapPorts_bare (s : State) (f : PortId → Port → Port) : (s.mapPorts f).bare = s.bare := by
  simp only [State.bare, State.mapPorts]

@[simp] theorem State.mapDids_bare (s : State) (f : Did → DidState → DidState) : (s.mapDids f).bare = s.bare := by
  simp only [State.bare, State.mapDids]

/-- `t` looks like `s` in the view `V`. -/
structure State.Keeps (V : View) (s t : State) : Prop where
  port : ∀ p, V.port (t.port p) = V.port (s.port p)
  did : ∀ d, V.did (t.did d) = V.did (s.did d)
  rest : V.rest t.bare = V.rest s.bare

namespace State.Keeps

variable {V W : View} {s t u : State}

theorem refl (V : View) (s : State) : s.Keeps V s := ⟨fun _ => rfl, fun _ => rfl, rfl⟩

theorem trans (h : s.Keeps V t) (k : t.Keeps V u) : s.Keeps V u :=
  ⟨fun p => (k.port p).trans (h.port p), fun d => (k.did d).trans (h.did d), k.rest.trans h.rest⟩

/-- A view that looks at the outcome of another one keeps what that one keeps. -/
theorem coarsen (h : s.Keeps W t) (hp : ∀ P, V.port (W.port P) = V.port P) (hd : ∀ D, V.did (W.did D) = V.did D)
    (hr : ∀ x, V.rest (W.rest x) = V.rest x) : s.Keeps V t :=
  ⟨fun p => by rw [← hp, h.port, hp], fun d => by rw [← hd, h.did, hd], by rw [← hr, h.rest, hr]⟩

/-- A field of a port that the view looks at is kept. -/
theorem portField {α : Type} (h : s.Keeps V t) (g : Port → α) (hg : ∀ P, g (V.port P) = g P) (p : PortId) :
    g (t.port p) = g (s.port p) := by
  rw [← hg, h.port, hg]

theorem didField {α : Type} (h : s.Keeps V t) (g : DidState → α) (hg : ∀ D, g (V.did D) = g D) (d : Did) :
    g (t.did d) = g (s.did d) := by
  rw [← hg, h.did, hg]

theorem restField {α : Type} (h : s.Keeps V t) (g : State → α) (hg : ∀ x, g (V.rest x.bare) = g x) :
    g t = g s := by
  rw [← hg, h.rest, hg]

theorem updPort (V : View) (s : State) (p : PortId) {f : Port → Port} (h : ∀ P, V.port (f P) = V.port P) :
    s.Keeps V (s.updPort p f) :=
  ⟨fun q => by rw [State.updPort_port]; split <;> simp [h], fun _ => by simp, by simp⟩

theorem updDid (V : View) (s : State) (d : Did) {f : DidState → DidState} (h : ∀ D, V.did (f D) = V.did D) :
    s.Keeps V (s.updDid d f) :=
  ⟨fun _ => by simp, fun e => by rw [State.updDid_did]; split <;> simp [h], by simp⟩

theorem mapPorts (V : View) (s : State) {f : PortId → Port → Port} (h : ∀ p P, V.port (f p P) = V.port P) :
    s.Keeps V (s.mapPorts f) :=
  ⟨fun p => by simp [h], fun _ => by simp, by simp⟩

theorem mapDids (V : View) (s : State) {f : Did → DidState → DidState} (h : ∀ d D, V.did (f d D) = V.did D) :
    s.Keeps V (s.mapDids f) :=
  ⟨fun _ => by simp, fun d => by simp [h], by simp⟩

/-- A change of the rest alone, which the view does not see. -/
theorem ofRest (hp : t.ports = s.ports) (hd : t.dids = s.dids) (hr : V.rest t.bare = V.rest s.bare) :
    s.Keeps V t :=
  ⟨fun p => by unfold State.port; rw [hp], fun d => by unfold State.did; rw [hd], hr⟩

/-- Operations one after another, each of which keeps the view. -/
theorem foldl {α : Type} {f : State → α → State} (h : ∀ (t : State) (x : α), t.Keeps V (f t x)) (s : State)
    (xs : List α) : s.Keeps V (xs.foldl f s) := by
  induction xs generalizing s with
  | nil => exact refl V s
  | cons x xs ih => exact (h s x).trans (ih (f s x))

end State.Keeps

/-- All but what the notice unit changes: element lists, match states and notice flags (R174, R177). -/
def View.notice : View where
  port P := { P with elements := [], watchMatch := true, noticeFlag := false }
  did D := D
  rest s := { s with elementUse := 0 }

/-- All but what the end of an event changes besides: destination entries, bids and trains, and where a port is UP
its refusals (R69, R89, R106, R140, R149). -/
def View.event : View where
  port P := { View.notice.port P with
    trains := Vector.replicate 32 (.const .idle), mcTrains := .const .idle,
    refusalOutbox := if P.link = .up then [] else P.refusalOutbox,
    counters := { P.counters with refusalLost := if P.link = .up then 0 else P.counters.refusalLost } }
  did D := { D with map := .unmapped, lastMove := .none, moveDone := false, bids := .const [] }
  rest := View.notice.rest

/-- All but what the closing of a record changes besides: records, unsent grants and reserved usage (R59, R79). -/
def View.grants : View where
  port P := { View.event.port P with grants := Vector.replicate 32 (.const none), grantOutbox := [] }
  did D := { View.event.did D with usage := D.usage.map fun _ u => { u with reserved := 0 } }
  rest := View.event.rest

/-- All but what a bid changes besides: the count of bad bids (R65). -/
def View.bids : View where
  port P := { View.grants.port P with counters := { (View.event.port P).counters with badBid := 0 } }
  did := View.grants.did
  rest := View.grants.rest

/-- All but destinations, and what the release of a queue entry changes: credits, markers, stored multicast cells
and the multicast hold (R119, R124). -/
def View.release : View where
  port P := { View.event.port P with held := 0, owed := 0 }
  did _ := DidState.reset 0
  rest s := { View.event.rest s with markerUse := 0, owedMarkers := [], mcCells := [], poolUse := 0, mcHold := false }

/-- What a port-down keeps: of each port its link, its counters, its settings and its monitors among others, and of
the rest the command queue (R25). -/
def View.down : View where
  port P := { View.release.port P with
    grants := Vector.replicate 32 (.const none), grantOutbox := [], refusalOutbox := [] }
  did := View.release.did
  rest s := { View.release.rest s with cmdUnit := .ready }

section Coarser

variable {s t : State}

theorem State.Keeps.event_of_notice (h : s.Keeps .notice t) : s.Keeps .event t :=
  h.coarsen (fun _ => rfl) (fun _ => rfl) fun _ => rfl

theorem View.event_port_event (P : Port) : View.event.port (View.event.port P) = View.event.port P := by
  simp only [View.event, View.notice]
  split_ifs <;> rfl

theorem State.Keeps.grants_of_event (h : s.Keeps .event t) : s.Keeps .grants t :=
  h.coarsen (fun P => by unfold View.grants; simp only [View.event_port_event]) (fun _ => rfl) fun _ => rfl

theorem State.Keeps.bids_of_grants (h : s.Keeps .grants t) : s.Keeps .bids t := by
  refine h.coarsen (fun P => ?_) (fun _ => ?_) fun _ => rfl
  · by_cases h : P.link = .up <;> simp [View.bids, View.grants, View.event, View.notice, h]
  · simp [View.bids, View.grants, View.event, PerG.map]

theorem State.Keeps.release_of_event (h : s.Keeps .event t) : s.Keeps .release t :=
  h.coarsen (fun P => by unfold View.release; simp only [View.event_port_event]) (fun _ => rfl) fun _ => rfl

theorem State.Keeps.down_of_release (h : s.Keeps .release t) : s.Keeps .down t := by
  refine h.coarsen (fun P => ?_) (fun _ => rfl) fun _ => rfl
  by_cases h : P.link = .up <;> simp [View.down, View.release, View.event, View.notice, h]

theorem State.Keeps.down_of_grants (h : s.Keeps .grants t) : s.Keeps .down t := by
  refine h.coarsen (fun P => ?_) (fun _ => rfl) fun _ => rfl
  by_cases h : P.link = .up <;> simp [View.down, View.release, View.grants, View.event, View.notice, h]

end Coarser

/-! ### The end of an event -/

/-- An element cell placed is out of the sight of the notice view (R157). -/
theorem State.placeElement_keeps (s : State) (p : PortId) (f : Frame) : s.Keeps .notice (s.placeElement p f) :=
  have h : s.Keeps .notice (s.updPort p fun P => { P with elements := P.elements ++ [f] }) :=
    .updPort _ _ _ fun _ => rfl
  h.trans (.ofRest rfl rfl rfl)

theorem State.offerNotices_keeps (s : State) : s.Keeps .notice s.offerNotices := by
  unfold State.offerNotices
  refine State.Keeps.foldl (fun t p => ?_) _ _
  obtain ⟨-, -, e⟩ | ⟨-, e⟩ := t.offerNotice_cases p (noticeFrame s.noticeWord s.moveDoneWord) <;> rw [e]
  · exact t.placeElement_keeps _ _
  · exact .refl _ _

theorem noticeStep_keeps (s t : State) : t.Keeps .notice (noticeStep s t) := by
  have h : t.Keeps .notice (t.mapPorts fun p P => P.judgeNotice (s.port p).conditions) :=
    .mapPorts _ _ fun p P => by unfold Port.judgeNotice; split_ifs <;> rfl
  unfold noticeStep
  dsimp only
  split_ifs
  · exact h.trans (State.offerNotices_keeps _)
  · exact h

/-- A refusal is seen at a port in UP alone (R69). -/
theorem State.refuse_keeps (s : State) (p : PortId) (r : RefusalEntry) : s.Keeps .event (s.refuse p r) := by
  have up {f : Port → Port} (hu : s.isUp p = true)
      (h : ∀ P : Port, P.link = .up → View.event.port (f P) = View.event.port P) :
      s.Keeps .event (s.updPort p f) :=
    ⟨fun q => by
      rw [State.updPort_port]
      split
      · subst q; exact h _ (of_decide_eq_true hu)
      · rfl, fun _ => by simp, rfl⟩
  obtain ⟨-, e⟩ | ⟨hu, -, -, e⟩ | ⟨hu, -, -, e⟩ := s.refuse_cases p r <;> rw [e]
  · exact .refl _ _
  · exact up hu fun P hP => by simp [View.event, View.notice, hP, PortCounters.incRefusalLost]
  · exact up hu fun P hP => by simp [View.event, View.notice, hP]

theorem State.setBids_keeps (s : State) (d : Did) (c : GClass) (q : List BidEntry) :
    s.Keeps .event (s.setBids d c q) :=
  .updDid _ _ _ fun _ => rfl

theorem State.removeBids_keeps (s : State) (d : Did) (c : GClass) (why : Reason) :
    s.Keeps .event (s.removeBids d c why) :=
  (State.Keeps.foldl (fun t _ => t.refuse_keeps _ _) _ _).trans (State.setBids_keeps _ _ _ _)

theorem State.rejudgeBids_keeps (s : State) (d : Did) : s.Keeps .event (s.rejudgeBids d) := by
  have removed (why : Reason) : s.Keeps .event (GClass.all.foldl (fun t c => t.removeBids d c why) s) :=
    .foldl (fun t _ => t.removeBids_keeps _ _ _) _ _
  unfold State.rejudgeBids
  split
  · exact removed _
  · split_ifs
    · exact .refl _ _
    · exact removed _

theorem State.mapTrainsOf_keeps (s : State) (d : Did) (f : TrainState → TrainState) :
    s.Keeps .event (s.mapTrainsOf d f) :=
  .mapPorts _ _ fun _ _ => rfl

theorem State.mcForget_keeps (s : State) (d : Did) : s.Keeps .event (s.mcForget d) :=
  .mapPorts _ _ fun _ _ => rfl

theorem State.afterCutover_keeps (s : State) (d : Did) : s.Keeps .event (s.afterCutover d) := by
  unfold State.afterCutover
  dsimp only
  split_ifs
  · exact s.rejudgeBids_keeps d
  · exact (s.rejudgeBids_keeps d).trans
      ((State.mapTrainsOf_keeps _ d fun _ => .idle).trans (State.mcForget_keeps _ d))

theorem State.cutover_keeps (s : State) (d : Did) (target : PortId) (r : MoveResult) :
    s.Keeps .event (s.cutover d target r) := by
  have moved : s.Keeps .event (s.setMap d (.mapped target)) := .updDid _ _ _ fun _ => rfl
  have done : (s.setMap d (.mapped target)).Keeps .event ((s.setMap d (.mapped target)).completeMove d r) :=
    .updDid _ _ _ fun _ => rfl
  exact moved.trans (done.trans (State.afterCutover_keeps _ d))

theorem State.judgeDrain_keeps (s : State) (d : Did) : s.Keeps .event (s.judgeDrain d) := by
  obtain ⟨_, _, _, _, -, -, e⟩ | ⟨-, e⟩ := s.judgeDrain_cases d <;> rw [e]
  · exact s.cutover_keeps _ _ _
  · exact .refl _ _

/-- The end of an event keeps all but destination entries, bids, trains, refusals and notices (R148, R174). -/
theorem eventEnd_keeps (s t : State) : t.Keeps .event (eventEnd s t) :=
  (State.Keeps.foldl State.judgeDrain_keeps t _).trans (noticeStep_keeps _ _).event_of_notice

/-! ### Bids and records -/

theorem State.updUsage_unreserve_keeps (s : State) (d : Did) (c : GClass) (n : Nat) :
    s.Keeps .grants (s.updUsage d c (Usage.unreserve n)) := by
  refine ⟨fun _ => by simp [State.updUsage, State.setUsage], fun e => ?_, rfl⟩
  unfold State.updUsage State.setUsage State.usage
  rw [State.updDid_did]
  split
  · subst e
    cases c <;> rfl
  · rfl

theorem State.setGrant_keeps (s : State) (p : PortId) (d : Did) (c : GClass) (g : Option GrantRec) :
    s.Keeps .grants (s.setGrant p d c g) :=
  .updPort _ _ _ fun _ => rfl

theorem State.updOutbox_keeps (s : State) (p : PortId) (f : List GrantEntry → List GrantEntry) :
    s.Keeps .grants (s.updOutbox p f) :=
  .updPort _ _ _ fun _ => rfl

theorem State.closeGrant_keeps (s : State) (p : PortId) (d : Did) (c : GClass) :
    s.Keeps .grants (s.closeGrant p d c) := by
  obtain ⟨-, e⟩ | ⟨g, -, e⟩ := s.closeGrant_cases p d c <;> rw [e]
  · exact .refl _ _
  · exact (s.updUsage_unreserve_keeps d c _).trans
      ((State.setGrant_keeps _ p d c _).trans (State.updOutbox_keeps _ p _))

theorem State.cutGrant_keeps (s : State) (p : PortId) (d : Did) (c : GClass) (n : Nat) :
    s.Keeps .grants (s.cutGrant p d c n) := by
  unfold State.cutGrant
  split
  · exact .refl _ _
  · split_ifs
    · exact (s.updUsage_unreserve_keeps d c _).trans
        ((State.setGrant_keeps _ p d c _).trans (State.updOutbox_keeps _ p _))
    · exact .refl _ _

theorem State.takeBid_keeps (s : State) (p : PortId) (b : BidSlot) : s.Keeps .bids (s.takeBid p b) := by
  have refused (r : RefusalEntry) : s.Keeps .bids (s.refuse p r) := (s.refuse_keeps p r).grants_of_event.bids_of_grants
  have queued (c : GClass) (q : List BidEntry) : s.Keeps .grants (s.setBids b.did c q) :=
    (s.setBids_keeps _ _ _).grants_of_event
  unfold State.takeBid
  cases b.valid
  · exact .refl _ _
  cases b.cls.granted? with
  | none => exact State.Keeps.updPort _ s p (f := fun P => { P with counters := P.counters.incBadBid }) fun _ => rfl
  | some c =>
    by_cases hn : b.count = 0
    · simp only [hn, Bool.not_true, Bool.false_eq_true, if_false, if_true, State.withdrawBid]
      split_ifs
      · exact ((queued c _).trans (State.closeGrant_keeps _ _ _ _)).bids_of_grants
      · exact .refl _ _
    · simp only [hn, Bool.not_true, Bool.false_eq_true, if_false]
      cases s.portOf b.did with
      | none => exact refused _
      | some q =>
        simp only
        split_ifs
        · exact ((queued c _).trans (State.cutGrant_keeps _ _ _ _ _)).bids_of_grants
        · exact refused _

/-- The bids of a header keep all but bids, records, refusals, notices and what a cutover changes (R65). -/
theorem State.takeBids_keeps (s : State) (p : PortId) (bs : List BidSlot) : s.Keeps .bids (s.takeBids p bs) :=
  .foldl (fun t b => (t.takeBid_keeps p b).trans (eventEnd_keeps _ _).grants_of_event.bids_of_grants) _ _

end Sys2Proof.Machine
end

section
/-! PROOFS. Cells that arrive at a port in UP: command cells, cells of an unaccepted kind, and the path of each
cell (R1, R5, R92, R93, R99, R158). -/

namespace Sys2Proof.Machine

/-! ### Credits and counters -/

theorem State.isUp_iff (s : State) (p : PortId) : s.isUp p = true ↔ (s.port p).link = .up := by
  simp [State.isUp]

/-- The return of a credit to a port in UP whose cell came under one (R99, R155). -/
theorem State.refundCredit_held (s : State) (p : PortId) (hu : s.isUp p = true)
    (hc : (s.port p).held + (s.port p).owed < 8) :
    s.refundCredit p = s.updPort p fun P => { P with owed := P.owed + 1 } := by
  unfold State.refundCredit
  rw [if_pos (by simp [hu, (s.creditOk_iff p).2 hc])]

/-- No credit is returned for a cell that came without one (R99). -/
theorem State.refundCredit_overrun (s : State) (p : PortId) (hc : 8 ≤ (s.port p).held + (s.port p).owed) :
    s.refundCredit p = s := by
  have : s.creditOk p = false := by
    rw [Bool.eq_false_iff, ne_eq, s.creditOk_iff p]
    omega
  unfold State.refundCredit
  rw [if_neg (by simp [this])]

/-! ### Command cells -/

/-- A command cell whose payload check fails is counted and its credit returned (R6, R158). -/
theorem State.commandArrival_bad (s : State) (p : PortId) (h : IngressHeader) (payload : Payload) :
    s.commandArrival p h payload false = (s.countPort p .incPayloadErr).refundCredit p := rfl

/-- A command cell without a credit is counted and dropped (R158). -/
theorem State.commandArrival_overrun (s : State) (p : PortId) (h : IngressHeader) (payload : Payload)
    (hc : 8 ≤ (s.port p).held + (s.port p).owed) :
    s.commandArrival p h payload true = s.countPort p .incC0Overrun := by
  have : ¬ s.creditOk p = true := by rw [s.creditOk_iff p]; omega
  simp [State.commandArrival, this]

/-- A command cell under a credit enters a queue with room (R158). -/
theorem State.commandArrival_room (s : State) (p : PortId) (h : IngressHeader) (payload : Payload)
    (hc : (s.port p).held + (s.port p).owed < 8) (hq : s.cmdQueue.length < 16) :
    s.commandArrival p h payload true =
      { s.holdCredit p with cmdQueue := s.cmdQueue ++
        [{ src := p, first := h.first, last := h.last, frame := payloadFrame payload }] } := by
  have : ¬ 16 ≤ s.cmdQueue.length := by omega
  simp [State.commandArrival, (s.creditOk_iff p).2 hc, Config.commandQueueSize, this]

/-- A command cell under a credit that meets a full queue has its credit returned, and is answered BUSY or lost
(R158). -/
theorem State.commandArrival_full (s : State) (p : PortId) (h : IngressHeader) (payload : Payload)
    (hu : s.isUp p = true) (hc : (s.port p).held + (s.port p).owed < 8) (hq : 16 ≤ s.cmdQueue.length) :
    s.commandArrival p h payload true =
      if s.elementUse < 32
      then (s.updPort p fun P => { P with owed := P.owed + 1 }).placeElement p
        (responseFrame (payloadFrame payload) .busy [])
      else { s.updPort p (fun P => { P with owed := P.owed + 1 }) with cmdLost := countUp s.cmdLost } := by
  simp [State.commandArrival, (s.creditOk_iff p).2 hc, Config.commandQueueSize, Config.elementAllowance, hq,
    s.refundCredit_held p hu hc]

/-- Settles O31: the clauses are those of `commandArrival`, with the return of a credit and the element cell
placed written as one change of the port. -/
theorem commandCellsEnter : Obligations.CommandCellsEnter := by
  intro s p h payload hu
  refine ⟨fun hc => ?_, fun hc => ⟨?_, ?_⟩, fun hc hq => ?_, fun hc hq he => ?_, fun hc hq he => ?_⟩
  · rw [State.commandArrival_bad, State.refundCredit_held, State.countPort, State.updPort_updPort]
    · rfl
    · simpa [State.countPort, State.isUp] using hu
    · simpa [State.countPort] using hc
  · rw [State.commandArrival_bad, State.refundCredit_overrun]
    · rfl
    · simpa [State.countPort] using hc
  · exact s.commandArrival_overrun p h payload hc
  · exact s.commandArrival_room p h payload hc hq
  · rw [s.commandArrival_full p h payload hu hc hq, if_pos he, State.placeElement, State.updPort_updPort]
    rfl
  · rw [s.commandArrival_full p h payload hu hc hq, if_neg (by omega)]

/-! ### The header content and the bids -/

/-- All but what the flags and the bids of a header change of a port and a destination (R5, R26, R27, R65). -/
def View.header : View where
  port P := { View.bids.port P with partnerAligned := false, holds := .const false, failCount := 0 }
  did := View.bids.did
  rest := View.bids.rest

/-- The state that the flags and the bids of a header leave, each bid an event of its own (R5, R65). -/
def State.headerTaken (s : State) (p : PortId) (h : IngressHeader) : State :=
  (s.updPort p fun P => { P with partnerAligned := true, holds := h.holds, failCount := 0 }).takeBids p h.bids

theorem State.headerTaken_keeps (s : State) (p : PortId) (h : IngressHeader) :
    s.Keeps .header (s.headerTaken p h) := by
  have flags : s.Keeps .header
      (s.updPort p fun P => { P with partnerAligned := true, holds := h.holds, failCount := 0 }) :=
    .updPort _ _ _ fun _ => rfl
  refine flags.trans ((State.takeBids_keeps _ p h.bids).coarsen (fun P => ?_) (fun D => ?_) fun _ => rfl)
  · by_cases hl : P.link = .up <;> simp [View.header, View.bids, View.grants, View.event, View.notice, hl]
  · simp [View.header, View.bids, View.grants, View.event, PerG.map]

/-- The hold flags stay as the header gave them (R27). -/
theorem State.headerTaken_holds (s : State) (p : PortId) (h : IngressHeader) :
    ((s.headerTaken p h).port p).holds = h.holds := by
  refine ((State.takeBids_keeps _ p h.bids).portField Port.holds (fun _ => rfl) p).trans ?_
  rw [State.updPort_port_self]

section HeaderTaken

variable (s : State) (p : PortId) (h : IngressHeader)

theorem State.headerTaken_link (q : PortId) : ((s.headerTaken p h).port q).link = (s.port q).link :=
  (s.headerTaken_keeps p h).portField Port.link (fun _ => rfl) q

theorem State.headerTaken_settings (q : PortId) : ((s.headerTaken p h).port q).settings = (s.port q).settings :=
  (s.headerTaken_keeps p h).portField Port.settings (fun _ => rfl) q

theorem State.headerTaken_held (q : PortId) : ((s.headerTaken p h).port q).held = (s.port q).held :=
  (s.headerTaken_keeps p h).portField Port.held (fun _ => rfl) q

theorem State.headerTaken_owed (q : PortId) : ((s.headerTaken p h).port q).owed = (s.port q).owed :=
  (s.headerTaken_keeps p h).portField Port.owed (fun _ => rfl) q

theorem State.headerTaken_badKind (q : PortId) :
    ((s.headerTaken p h).port q).counters.badKind = (s.port q).counters.badKind :=
  (s.headerTaken_keeps p h).portField (fun P => P.counters.badKind) (fun _ => rfl) q

theorem State.headerTaken_queue (d : Did) (c : Cls) : (s.headerTaken p h).queue d c = s.queue d c :=
  (s.headerTaken_keeps p h).didField (fun D => D.queues.get c) (fun _ => rfl) d

theorem State.headerTaken_occupied (d : Did) (c : GClass) :
    ((s.headerTaken p h).usage d c).occupied = (s.usage d c).occupied :=
  (s.headerTaken_keeps p h).didField (fun D => (D.usage.get c).occupied) (fun _ => by cases c <;> rfl) d

end HeaderTaken

/-- A cell from a port in UP whose header passes its check with aligned set: the flags are taken, then the bids one
by one, and then the cell (R5). -/
theorem exec_ingressCell_up (s : State) (p : PortId) (c : RawCell) (h : IngressHeader)
    (hh : IngressHeader.read c.header = h) (hp : headerPasses c.header = true) (hl : (s.port p).link = .up)
    (ha : h.aligned = true) :
    exec (.ingressCell p c) s =
      .next (eventEnd (s.headerTaken p h) ((s.headerTaken p h).takeCell p h c)) := by
  subst hh
  change Host.Outcome.next (s.cellArrives p c) = _
  unfold State.cellArrives State.headerTaken
  simp only [hl, hp, ha, if_true, Port.takeFlags]

/-! ### The classification of R1 -/

theorem Cls.granted?_eq_none (c : Cls) : c.granted? = none ↔ c = .c0 := by
  cases c <;> simp [Cls.granted?]

theorem Cls.granted?_eq_some (c : Cls) (g : GClass) : c.granted? = some g ↔ c = g.cls := by
  cases c <;> cases g <;> simp [Cls.granted?, GClass.cls]

theorem IngressHeader.classify_fill (h : IngressHeader) : h.classify = .fill ↔ h.kind = .fill := by
  unfold IngressHeader.classify
  split <;> simp_all

theorem IngressHeader.classify_unicast (h : IngressHeader) (g : GClass) :
    h.classify = .unicast g ↔ h.kind = .data ∧ h.cls = g.cls ∧ h.element = false := by
  rw [← Cls.granted?_eq_some]
  unfold IngressHeader.classify
  split <;> simp_all

theorem IngressHeader.classify_multicast (h : IngressHeader) (g : GClass) :
    h.classify = .multicast g ↔ h.kind = .mdata ∧ h.cls = g.cls ∧ h.element = false := by
  rw [← Cls.granted?_eq_some]
  unfold IngressHeader.classify
  split <;> simp_all

theorem IngressHeader.classify_class0 (h : IngressHeader) :
    h.classify = .class0 ↔ h.kind = .ctrl ∧ h.cls = .c0 ∧ h.element = false := by
  rw [← Cls.granted?_eq_none]
  unfold IngressHeader.classify
  split <;> simp_all

theorem IngressHeader.classify_command (h : IngressHeader) :
    h.classify = .command ↔ h.kind = .ctrl ∧ h.cls = .c0 ∧ h.element = true := by
  rw [← Cls.granted?_eq_none]
  unfold IngressHeader.classify
  split <;> simp_all

theorem IngressHeader.classify_badKind (h : IngressHeader) :
    h.classify = .badKind ↔ ((h.kind = .data ∨ h.kind = .mdata) ∧ (h.cls = .c0 ∨ h.element = true)) ∨
      (h.kind = .ctrl ∧ h.cls ≠ .c0) ∨ h.kind = .mark ∨ h.kind = .reserved := by
  rw [ne_eq, ← Cls.granted?_eq_none]
  unfold IngressHeader.classify
  cases h.kind <;> cases h.cls.granted? <;> cases h.element <;> simp

/-- DATA, MDATA and CTRL are the kinds that carry a cell (R179). -/
theorem IngressHeader.carriesCell_iff (h : IngressHeader) :
    h.carriesCell = true ↔ h.kind = .data ∨ h.kind = .mdata ∨ h.kind = .ctrl := by
  unfold IngressHeader.carriesCell
  cases h.kind <;> simp

/-! ### The cell -/

/-- A unicast or class-0 cell, of class `k`, is counted in and goes on its path (R92, R93, R179). -/
theorem State.takeCell_unicast (s : State) (p : PortId) (h : IngressHeader) (c : RawCell) (k : Cls)
    (hk : (∃ g : GClass, h.classify = .unicast g ∧ k = g.cls) ∨ (h.classify = .class0 ∧ k = .c0)) :
    s.takeCell p h c = (s.countPort p .incCellsIn).unicastArrival p k h c.payload (payloadPasses c) := by
  obtain ⟨g, hg, rfl⟩ | ⟨h0, rfl⟩ := hk
  · simp only [State.takeCell, hg, h.carriesCell_iff.2 (.inl ((h.classify_unicast g).1 hg).1), if_true]
  · simp only [State.takeCell, h0, h.carriesCell_iff.2 (.inr (.inr (h.classify_class0.1 h0).1)), if_true]

/-- An MDATA cell is counted in and goes to the multicast unit (R129, R179). -/
theorem State.takeCell_multicast (s : State) (p : PortId) (h : IngressHeader) (c : RawCell) (g : GClass)
    (hg : h.classify = .multicast g) :
    s.takeCell p h c = (s.countPort p .incCellsIn).multicastArrival p g h c.payload (payloadPasses c) := by
  simp only [State.takeCell, hg, h.carriesCell_iff.2 (.inr (.inl ((h.classify_multicast g).1 hg).1)), if_true]

/-- A command cell is counted in and goes to the command queue (R158, R179). -/
theorem State.takeCell_command (s : State) (p : PortId) (h : IngressHeader) (c : RawCell)
    (hc : h.classify = .command) :
    s.takeCell p h c = (s.countPort p .incCellsIn).commandArrival p h c.payload (payloadPasses c) := by
  simp only [State.takeCell, hc, h.carriesCell_iff.2 (.inr (.inr (h.classify_command.1 hc).1)), if_true]

theorem State.takeCell_fill (s : State) (p : PortId) (h : IngressHeader) (c : RawCell) (hk : h.kind = .fill) :
    s.takeCell p h c = s := by
  simp [State.takeCell, h.classify_fill.2 hk, IngressHeader.carriesCell, hk]

theorem State.takeCell_badKind (s : State) (p : PortId) (h : IngressHeader) (c : RawCell)
    (hb : h.classify = .badKind) :
    s.takeCell p h c = (if h.kind = .data ∨ h.kind = .mdata ∨ h.kind = .ctrl then s.countPort p .incCellsIn
      else s).countPort p .incBadKind := by
  simp only [State.takeCell, hb, h.carriesCell_iff]

/-- A cell of an unaccepted kind changes the counters of its port and nothing else (R1). -/
theorem State.takeCell_badKind_counts (s : State) (p : PortId) (h : IngressHeader) (c : RawCell)
    (hb : h.classify = .badKind) :
    ∃ f : PortCounters → PortCounters, (∀ k, (f k).badKind = countUp k.badKind) ∧
      s.takeCell p h c = s.countPort p f := by
  rw [s.takeCell_badKind p h c hb]
  split_ifs
  · exact ⟨fun k => k.incCellsIn.incBadKind, fun _ => rfl, State.updPort_updPort _ _ _ _⟩
  · exact ⟨PortCounters.incBadKind, fun _ => rfl, rfl⟩

/-- Settles O29: the cell changes the counters of its port alone, and the flags and bids before it keep the rest. -/
theorem badKindTouchesNothing : Obligations.BadKindTouchesNothing := by
  intro s u p c h hh hp hl ha hb hu
  change u = s.headerTaken p h at hu
  subst hu
  have kept := s.headerTaken_keeps p h
  obtain ⟨f, hf, he⟩ := (s.headerTaken p h).takeCell_badKind_counts p h c hb
  refine ⟨_, exec_ingressCell_up s p c h hh hp hl ha, ?_⟩
  rw [he, State.countPort]
  refine ⟨?_, ?_, ?_, kept.restField State.cmdQueue fun _ => rfl,
    kept.restField State.markerUse fun _ => rfl, kept.restField State.owedMarkers fun _ => rfl,
    kept.restField State.mcCells fun _ => rfl, kept.restField State.poolUse fun _ => rfl, rfl,
    fun d k => s.headerTaken_queue p h d k, fun d k => ⟨rfl, rfl, s.headerTaken_occupied p h d k⟩, fun q => ?_⟩
  · rw [State.updPort_port_self]
    exact (hf _).trans (congrArg countUp (s.headerTaken_badKind p h p))
  · rw [State.updPort_port_self]
    exact s.headerTaken_holds p h
  · rw [State.updPort_port_self]
    exact (s.headerTaken_link p h p).trans hl
  · have same : ∀ {α : Type} (g : Port → α), (∀ P : Port, g { P with counters := f P.counters } = g P) →
        g (((s.headerTaken p h).updPort p fun P => { P with counters := f P.counters }).port q) =
          g ((s.headerTaken p h).port q) := by
      intro α g hg
      rw [State.updPort_port]
      split
      · exact hg _
      · rfl
    exact ⟨(same Port.held fun _ => rfl).trans (s.headerTaken_held p h q),
      (same Port.owed fun _ => rfl).trans (s.headerTaken_owed p h q), same Port.trains fun _ => rfl,
      same Port.mcTrains fun _ => rfl, same Port.grants fun _ => rfl, same Port.grantOutbox fun _ => rfl,
      same Port.refusalOutbox fun _ => rfl⟩

/-! ### A cell for a DID that is not reachable -/

/-- A class-0 cell that is dropped has its credit returned; nothing is done for the other classes (R99). -/
theorem State.refundIfClass0_eq (s : State) (p : PortId) (k : Cls) (hu : s.isUp p = true) :
    s.refundIfClass0 p k =
      if k = .c0 ∧ (s.port p).held + (s.port p).owed < 8 then s.updPort p fun P => { P with owed := P.owed + 1 }
      else s := by
  cases k
  case c0 =>
    by_cases hc : (s.port p).held + (s.port p).owed < 8
    · rw [if_pos ⟨rfl, hc⟩]
      exact s.refundCredit_held p hu hc
    · rw [if_neg fun x => hc x.2]
      exact s.refundCredit_overrun p (by omega)
  all_goals rfl

/-- A cell for a DID that is UNMAPPED or whose port is not UP is counted at the DID, and dropped (R92, R93, R99). -/
theorem State.unicastArrival_unreachable (s : State) (p : PortId) (k : Cls) (h : IngressHeader) (payload : Payload)
    (good : Bool) (hd : ∀ q, s.portOf h.did = some q → s.isUp q = false) :
    s.unicastArrival p k h payload good =
      (s.countDid h.did (if s.portOf h.did = none then .incUnmapped else .incDestDown)).refundIfClass0 p k := by
  simp only [State.unicastArrival]
  split
  next hq => rw [if_pos hq]
  next q hq => rw [if_neg (by simp [hd q hq]), if_neg (by simp [hq])]

/-- A cell for a DID whose port is UP goes to the train step (R92, R93). -/
theorem State.unicastArrival_reachable (s : State) (p q : PortId) (k : Cls) (h : IngressHeader) (payload : Payload)
    (good : Bool) (hq : s.portOf h.did = some q) (hu : s.isUp q = true) :
    s.unicastArrival p k h payload good =
      s.trainStep p h.did k (storedOf p h payload good) (s.refusesPayload p good) := by
  simp [State.unicastArrival, hq, hu]

/-- What the drop of a cell at an unreachable DID leaves: a counter of the DID, and a credit returned (R99). -/
theorem State.dropUnreachable_spec (w v : State) (p : PortId) (d : Did) (k : Cls)
    (count : DidCounters → DidCounters) (hu : w.isUp p = true)
    (hv : v = (w.countDid d count).refundIfClass0 p k) :
    (∀ d' : Did, v.train p d' k = w.train p d' k) ∧ v.owedMarkers = w.owedMarkers ∧ v.mcCells = w.mcCells ∧
    v.markerUse = w.markerUse ∧ (∀ d' c', v.queue d' c' = w.queue d' c') ∧
    (∀ d' g, v.bids d' g = w.bids d' g ∧ v.usage d' g = w.usage d' g ∧ v.grant p d' g = w.grant p d' g) ∧
    (v.port p).counters = (w.port p).counters ∧ (v.port p).held = (w.port p).held ∧
    (v.port p).owed = (if k = .c0 ∧ (w.port p).held + (w.port p).owed < 8
      then (w.port p).owed + 1 else (w.port p).owed) ∧
    (v.did d).counters = count (w.did d).counters := by
  have didField : ∀ {α : Type} (g : DidState → α), (∀ D : DidState, g { D with counters := count D.counters } = g D) →
      ∀ d', g ((w.countDid d count).did d') = g (w.did d') := by
    intro α g hg d'
    rw [State.countDid, State.updDid_did]
    split
    · exact hg _
    · rfl
  rw [State.refundIfClass0_eq _ _ _ (by simpa [State.isUp, State.countDid] using hu)] at hv
  have hport : v.port p = { w.port p with owed := if k = .c0 ∧ (w.port p).held + (w.port p).owed < 8
      then (w.port p).owed + 1 else (w.port p).owed } := by
    rw [hv]
    simp only [State.countDid, State.updDid_port]
    split_ifs <;> simp
  have hdid : ∀ d', v.did d' = (w.countDid d count).did d' := by
    intro d'
    rw [hv]
    split_ifs <;> simp
  obtain ⟨howed, hcells, huse⟩ :
      v.owedMarkers = w.owedMarkers ∧ v.mcCells = w.mcCells ∧ v.markerUse = w.markerUse := by
    rw [hv]
    split_ifs <;> simp [State.countDid]
  refine ⟨fun _ => by simp only [State.train, hport]; rfl, howed, hcells, huse, fun d' c' => ?_,
    fun d' g => ⟨?_, ?_, by simp only [State.grant, hport]; rfl⟩, by rw [hport], by rw [hport], by rw [hport], ?_⟩
  · rw [State.queue, hdid, State.queue]
    exact didField (fun D => D.queues.get c') (fun _ => rfl) d'
  · rw [State.bids, hdid, State.bids]
    exact didField (fun D => D.bids.get g) (fun _ => rfl) d'
  · rw [State.usage, hdid, State.usage]
    exact didField (fun D => D.usage.get g) (fun _ => rfl) d'
  · rw [hdid]
    simp [State.countDid]

/-- Settles O35: the classification case by case, and `takeCell` on the state the header leaves. -/
theorem arrivalsTakeTheirPath : Obligations.ArrivalsTakeTheirPath := by
  refine ⟨fun h => ⟨h.classify_fill, fun g => ⟨h.classify_unicast g, h.classify_multicast g⟩, h.classify_class0,
    h.classify_command, h.classify_badKind⟩, ?_⟩
  intro s u w p c h good x hh hgood hp hl ha hu hw hx
  change u = s.headerTaken p h at hu
  change w = u.countPort p .incCellsIn at hw
  have hup : u.isUp p = true := by rw [State.isUp_iff, hu, s.headerTaken_link, hl]
  have hwp : w.port p = { u.port p with counters := (u.port p).counters.incCellsIn } := by
    rw [hw, State.countPort, State.updPort_port_self]
  have hwd : w.dids = u.dids := by rw [hw, State.countPort, State.updPort_dids]
  have hwu : ∀ q, w.isUp q = u.isUp q := by
    intro q
    unfold State.isUp
    rw [hw, State.countPort, State.updPort_port]
    split <;> rfl
  have hheld : (w.port p).held = (s.port p).held := by rw [hwp, hu]; exact s.headerTaken_held p h p
  have howed : (w.port p).owed = (s.port p).owed := by rw [hwp, hu]; exact s.headerTaken_owed p h p
  have hmode : (w.port p).settings = (s.port p).settings := by rw [hwp, hu]; exact s.headerTaken_settings p h p
  have hdid : ∀ d, w.did d = u.did d := fun d => by unfold State.did; rw [hwd]
  have hportOf : ∀ d, w.portOf d = u.portOf d := fun d => by unfold State.portOf; rw [hdid]
  refine ⟨u.takeCell p h c, ?_, u.takeCell_fill p h c, ?_, fun k hk => ?_, fun g hg => ?_, fun hc => ?_⟩
  · rw [hu]
    exact exec_ingressCell_up s p c h hh hp hl ha
  · intro hb
    rw [u.takeCell_badKind p h c hb, hw]
    rfl
  · rw [u.takeCell_unicast p h c k hk, ← hw, hgood]
    refine ⟨fun q hq huq => ?_, fun hdown => ?_⟩
    · rw [w.unicastArrival_reachable p q k h _ _ ((hportOf _).trans hq) ((hwu q).trans huq), hx,
        State.refusesPayload, hmode]
      rfl
    · rw [w.unicastArrival_unreachable p k h _ _ fun q hq => (hwu q).trans (hdown q ((hportOf _).symm.trans hq))]
      obtain ⟨htrain, hom, hmc, hmu, hqueue, hbug, hcnt, hhe, how, hdc⟩ :=
        w.dropUnreachable_spec _ p h.did k _ ((hwu p).trans hup) rfl
      rw [hheld, howed] at how
      refine ⟨(htrain _).trans (by simp only [State.train, hwp]; rfl), hom.trans (by simp [hw, State.countPort]),
        hmc.trans (by simp [hw, State.countPort]), hmu.trans (by simp [hw, State.countPort]), fun d' c' =>
          (hqueue d' c').trans (by simp only [State.queue, hdid]), fun d' g => ?_,
        hcnt, hhe.trans hheld, how, ?_⟩
      · obtain ⟨hb, hus, hg⟩ := hbug d' g
        exact ⟨hb.trans (by simp only [State.bids, hdid]), hus.trans (by simp only [State.usage, hdid]),
          hg.trans (by simp only [State.grant, hwp]; rfl)⟩
      · rw [hdc, hdid, hportOf]
        split_ifs <;> rfl
  · rw [u.takeCell_multicast p h c g hg, ← hw, hgood]
  · rw [u.takeCell_command p h c hc, ← hw, hgood]

end Sys2Proof.Machine
end

section
/-! PROOFS. How a command is read, and the commands that are refused with nothing changed (R16, R160, R161, R164). -/

namespace Sys2Proof.Machine

/-! ### How a frame is read -/

/-- The code byte and the parameter words of each command (R16, R163 to R171). -/
def codeTable : List (Byte × Code × Nat) :=
  [(0x01, .identify, 0), (0x02, .portSet, 15), (0x03, .portGet, 1), (0x04, .classSet, 12),
   (0x05, .poolSet, 19), (0x06, .lifetimeSet, 1), (0x07, .mapSet, 3), (0x08, .mapMove, 3),
   (0x09, .mapGet, 1), (0x0A, .groupSet, 4), (0x0B, .groupGet, 1), (0x0C, .noticeExpect, 3),
   (0x0D, .noticeRead, 0), (0x0E, .countersRead, 3), (0x0F, .testStart, 9), (0x10, .testStop, 1),
   (0x11, .testRead, 1), (0x12, .linesSet, 2), (0x13, .fabricReset, 0)]

/-- Each row of the table names its command, with the words that command needs. -/
theorem codeTable_sound : ∀ e ∈ codeTable, Code.ofByte e.1 = some e.2.1 ∧ e.2.2 = e.2.1.needs := by decide

/-- Each byte that names a command stands in the table. -/
theorem codeTable_complete : ∀ b : Byte, ∀ c ∈ Code.ofByte b, (b, c, c.needs) ∈ codeTable := by decide

theorem mem_codeTable (b : Byte) (c : Code) (n : Nat) :
    (b, c, n) ∈ codeTable ↔ Code.ofByte b = some c ∧ n = c.needs := by
  refine ⟨fun h => codeTable_sound _ h, ?_⟩
  rintro ⟨hc, rfl⟩
  exact codeTable_complete b c hc

/-- A cell is read as a command when it is a single cell, its code byte names that command and its parameter count
is enough and at most 31 (R16). -/
theorem CmdCell.reading_eq_some (x : CmdCell) (c : Code) :
    x.reading = some c ↔ x.first = true ∧ x.last = true ∧ x.frame.count ≤ 31 ∧
      ∃ needs, needs ≤ x.frame.count ∧ (x.frame.code, c, needs) ∈ codeTable := by
  have hneeds : (∃ needs, needs ≤ x.frame.count ∧ (x.frame.code, c, needs) ∈ codeTable) ↔
      Code.ofByte x.frame.code = some c ∧ c.needs ≤ x.frame.count := by
    simp only [mem_codeTable]
    exact ⟨fun ⟨_, hn, hc, e⟩ => ⟨hc, e ▸ hn⟩, fun ⟨hc, hn⟩ => ⟨_, hn, hc, rfl⟩⟩
  rw [hneeds]
  unfold CmdCell.reading
  cases x.first <;> cases x.last <;> simp only [Bool.and_true, Bool.and_false, Bool.not_true, Bool.not_false,
    if_true, if_false, Bool.false_eq_true, reduceCtorEq, false_and, and_false, true_and]
  cases hc : Code.ofByte x.frame.code with
  | none => simp
  | some k =>
    simp only [Option.some.injEq]
    split_ifs with hcount hn
    · simp [show ¬ x.frame.count ≤ 31 by omega]
    · constructor
      · intro h; cases h
      · rintro ⟨-, rfl, h⟩; omega
    · simp only [Option.some.injEq]
      constructor
      · rintro rfl; exact ⟨by omega, rfl, by omega⟩
      · exact fun h => h.2.1

/-- Word `i` of a frame is its `i`-th word (section 1.7). -/
theorem Frame.word_eq (f : Frame) (i : Fin 32) : f.word i = f[i] := by
  simp [Frame.word, List.getD_eq_getElem?_getD]

theorem Frame.word_zero (f : Frame) : f.word 0 = f[0] := f.word_eq 0

/-! ### What a refused command leaves -/

/-- A command whose source holds its credit taken: one unit leaves h, and the queue loses its head (R155, R159). -/
theorem State.takeCommand_held (s : State) (cmd : CmdCell) (rest : List CmdCell)
    (hh : 1 ≤ (s.port cmd.src).held) : s.takeCommand cmd rest = s.taken cmd rest := by
  have hne : (s.ports[cmd.src]).held ≠ 0 := by unfold State.port at hh; omega
  unfold State.takeCommand State.releaseCredit State.updPort State.taken Port.credited
  simp only [hne, if_false]
  rfl

/-- A command that is refused: its source is answered, and nothing else changes (R159, R160). -/
theorem commandStep_refused {s : State} {cmd : CmdCell} {rest : List CmdCell} {want : Option Code}
    {judge : CmdCell → State → Reply} {st : Status} (hunit : s.cmdUnit = .ready) (hq : s.cmdQueue = cmd :: rest)
    (hr : cmd.reading = want) (hh : 1 ≤ (s.port cmd.src).held)
    (hj : judge cmd (s.taken cmd rest) = .refuse st (s.taken cmd rest)) :
    commandStep want judge s = s.answered cmd rest (responseFrame cmd.frame st []) := by
  unfold commandStep
  rw [hunit, hq]
  simp only [hr, if_true, State.takeCommand_held s cmd rest hh, hj]
  exact State.offerResponse_eq _ _ _

/-- The ports of the state that the taking of a command leaves: links and settings stay. -/
theorem State.taken_port (s : State) (cmd : CmdCell) (rest : List CmdCell) (q : PortId) :
    ((s.taken cmd rest).port q).link = (s.port q).link ∧
      ((s.taken cmd rest).port q).settings = (s.port q).settings := by
  have : (s.taken cmd rest).port q = (s.updPort cmd.src Port.credited).port q := rfl
  rw [this, State.updPort_port]
  split <;> exact ⟨rfl, rfl⟩

/-- What the command unit asks of each command but FABRIC-RESET, which it carries out by itself (R171). -/
def Code.judge : Code → CmdCell → State → Reply
  | .identify => doIdentify
  | .portSet => doPortSet
  | .portGet => doPortGet
  | .classSet => doClassSet
  | .poolSet => doPoolSet
  | .lifetimeSet => doLifetimeSet
  | .mapSet => doMapSet
  | .mapMove => doMapMove
  | .mapGet => doMapGet
  | .groupSet => doGroupSet
  | .groupGet => doGroupGet
  | .noticeExpect => doNoticeExpect
  | .noticeRead => doNoticeRead
  | .countersRead => doCountersRead
  | .testStart => doTestStart
  | .testStop => doTestStop
  | .testRead => doTestRead
  | .linesSet => doLinesSet
  | .fabricReset => fun _ s => .accept false [] s

/-- The row of a command is its step of the command unit. -/
theorem exec_instrOf (code : Code) (s : State) (h : code ≠ .fabricReset) :
    exec (instrOf (some code)) s =
      .next (commandStep (some code) (fun c t => judgeCommand c code.judge t) s) := by
  cases code
  case fabricReset => exact absurd rfl h
  all_goals rfl

/-- A command from a port without may-command is answered DENIED (R160). -/
theorem exec_denied (s : State) (cmd : CmdCell) (rest : List CmdCell) (code : Code) (hunit : s.cmdUnit = .ready)
    (hq : s.cmdQueue = cmd :: rest) (hr : cmd.reading = some code)
    (hm : (s.port cmd.src).settings.mayCommand = false) (hh : 1 ≤ (s.port cmd.src).held) :
    exec (instrOf (some code)) s = .next (s.answered cmd rest (responseFrame cmd.frame .denied [])) := by
  have hmay : ¬ ((s.taken cmd rest).port cmd.src).settings.mayCommand = true := by
    simp [(s.taken_port cmd rest cmd.src).2, hm]
  by_cases hf : code = .fabricReset
  · subst hf
    change execFabricReset s = _
    unfold execFabricReset
    rw [hunit, hq]
    simp only [hr, if_true, State.takeCommand_held s cmd rest hh, if_neg hmay]
    rw [State.offerResponse_eq]
    rfl
  · rw [exec_instrOf code s hf, commandStep_refused hunit hq hr hh]
    unfold judgeCommand
    rw [if_neg hmay]

/-- A command of a ready state that its judgement refuses is answered, and nothing else changes (R160). -/
theorem exec_refused {s : State} {cmd : CmdCell} {rest : List CmdCell} {code : Code} {st : Status}
    (h : Ready s cmd rest (some code)) (hf : code ≠ .fabricReset)
    (hj : code.judge cmd (s.taken cmd rest) = .refuse st (s.taken cmd rest)) :
    exec (instrOf (some code)) s = .next (s.answered cmd rest (responseFrame cmd.frame st [])) := by
  rw [exec_instrOf code s hf, commandStep_refused h.unit h.queue h.reading h.held]
  unfold judgeCommand
  rw [if_pos (by rw [(s.taken_port cmd rest cmd.src).2]; exact h.may)]
  exact hj

/-! ### Values out of range -/

theorem Word.port?_eq_none {w : Word} (h : 23 < w.toNat) : Word.port? w = none :=
  dif_neg (by omega)

theorem Word.did?_eq_none {w : Word} (h : 31 < w.toNat) : Word.did? w = none :=
  dif_neg (by omega)

theorem Word.group?_eq_none {w : Word} (h : 511 < w.toNat) : Word.group? w = none :=
  dif_neg (by omega)

/-- A command whose first identifier is out of range is refused with BAD_VALUE, whatever follows (R160). -/
theorem withValue_none {α : Type} (x : Option α) (s : State) (k : α → Reply) (h : x = none) :
    withValue x s k = .refuse .badValue s := by
  rw [h]
  rfl

/-- A command whose second value is out of range is refused with BAD_VALUE, whether the first is in range or
not (R160). -/
theorem withValue_withValue_none {α β : Type} (x : Option α) (y : Option β) (s : State) (k : α → β → Reply)
    (h : y = none) : withValue x s (fun a => withValue y s (k a)) = .refuse .badValue s := by
  cases x with
  | none => rfl
  | some a => exact withValue_none y s (k a) h

/-- A port above 23, a DID above 31 or a group above 511 refuses a command that names one (R160). -/
theorem Code.judge_badValue (code : Code) (cmd : CmdCell) (s : State)
    (h : (code ∈ [.portSet, .portGet, .noticeExpect, .testStart, .testStop, .testRead] ∧ 23 < (cmd.param 1).toNat) ∨
      (code ∈ [.mapSet, .mapMove, .mapGet] ∧ 31 < (cmd.param 1).toNat) ∨
      (code = .mapSet ∧ cmd.param 2 ≠ 0 ∧ 23 < (cmd.param 3).toNat) ∨
      (code = .mapMove ∧ 23 < (cmd.param 2).toNat) ∨
      (code ∈ [.groupSet, .groupGet] ∧ 511 < (cmd.param 1).toNat)) :
    code ≠ .fabricReset ∧ code.judge cmd s = .refuse .badValue s := by
  rcases h with ⟨hc, hp⟩ | ⟨hc, hd⟩ | ⟨rfl, h2, h3⟩ | ⟨rfl, h2⟩ | ⟨hc, hg⟩
  · have := withValue_none (α := PortId) _ s (h := Word.port?_eq_none hp)
    simp only [List.mem_cons, List.not_mem_nil, or_false] at hc
    rcases hc with rfl | rfl | rfl | rfl | rfl | rfl <;> exact ⟨by decide, this _⟩
  · have := withValue_none (α := Did) _ s (h := Word.did?_eq_none hd)
    simp only [List.mem_cons, List.not_mem_nil, or_false] at hc
    rcases hc with rfl | rfl | rfl <;> exact ⟨by decide, this _⟩
  · refine ⟨by decide, withValue_withValue_none _ _ s _ ?_⟩
    simpa [givenMap, Word.flag, Word.port?_eq_none h3] using h2
  · exact ⟨by decide, withValue_withValue_none _ _ s _ (Word.port?_eq_none h2)⟩
  · have := withValue_none (α := GroupId) _ s (h := Word.group?_eq_none hg)
    simp only [List.mem_cons, List.not_mem_nil, or_false] at hc
    rcases hc with rfl | rfl <;> exact ⟨by decide, this _⟩

/-! ### PORT-SET -/

/-- A PORT-SET of a port in range, judged after the port number (R161, R164). -/
theorem doPortSet_port (cmd : CmdCell) (s : State) (p : PortId) (hp : (cmd.param 1).toNat = p.val) :
    doPortSet cmd s =
      if s.lastCommander p && clearsCommand cmd then .refuse .lockout s
      else if badCadence cmd then .refuse .badValue s
      else if tooManyReports cmd p s then .refuse .inUse s
      else .accept (portSetClamps cmd (s.port p).settings) [] (eventEnd s (s.applyPortSet p cmd)) := by
  have : Word.port? (cmd.param 1) = some p := by
    unfold Word.port?
    rw [dif_pos (by omega)]
    exact congrArg some (Fin.ext hp)
  unfold doPortSet
  rw [this]
  rfl

/-- Another port that is UP with may-command set keeps the last commander from being one (R161). -/
theorem State.lastCommander_eq_false {s : State} {p : PortId}
    (h : (s.port p).link = .up → (s.port p).settings.mayCommand = true →
      ∃ q, q ≠ p ∧ (s.port q).link = .up ∧ (s.port q).settings.mayCommand = true) :
    s.lastCommander p = false := by
  unfold State.lastCommander
  rw [Bool.and_eq_false_iff]
  by_cases hc : s.commands p = true
  · simp only [State.commands, State.isUp, Bool.and_eq_true, decide_eq_true_eq] at hc
    obtain ⟨q, hqp, hl, hm⟩ := h hc.1 hc.2
    refine .inr (Bool.eq_false_iff.2 fun hall => ?_)
    have := List.all_eq_true.1 hall q (List.mem_finRange q)
    simp [hqp, State.commands, State.isUp, hl, hm] at this
  · exact .inl (Bool.eq_false_iff.2 hc)

theorem clearsCommand_eq (cmd : CmdCell) :
    clearsCommand cmd = ((cmd.names 0 && decide (cmd.param 3 = 0)) || (cmd.names 10 && decide (cmd.param 14 = 0))) := by
  simp [clearsCommand, Word.flag]

theorem badCadence_iff (cmd : CmdCell) :
    badCadence cmd = true ↔ cmd.names 9 = true ∧ ((cmd.param 12).toNat = 0 ∨ 16 < (cmd.param 12).toNat) := by
  simp [badCadence]

theorem tooManyReports_iff (cmd : CmdCell) (p : PortId) (s : State) :
    tooManyReports cmd p s = true ↔ cmd.names 11 = true ∧ cmd.param 15 ≠ 0 ∧
      2 ≤ (allPorts.filter fun q => (s.port q).settings.report && !decide (q = p)).length := by
  simp [tooManyReports, Word.flag, State.reportPorts, Config.maxReportPorts, List.filter_filter, and_assoc,
    Bool.and_comm]

/-- A PORT-SET that is not refused for LOCKOUT: a bad cadence length is BAD_VALUE, and after it a third report port
is IN_USE (R164). -/
theorem doPortSet_refused (cmd : CmdCell) (s : State) (p : PortId) (hp : (cmd.param 1).toNat = p.val)
    (hl : clearsCommand cmd = true → (s.port p).link = .up → (s.port p).settings.mayCommand = true →
      ∃ q, q ≠ p ∧ (s.port q).link = .up ∧ (s.port q).settings.mayCommand = true) :
    (badCadence cmd = true → doPortSet cmd s = .refuse .badValue s) ∧
    (badCadence cmd = false → tooManyReports cmd p s = true → doPortSet cmd s = .refuse .inUse s) := by
  have hlock : (s.lastCommander p && clearsCommand cmd) = false := by
    cases hc : clearsCommand cmd
    · exact Bool.and_false _
    · rw [State.lastCommander_eq_false (hl hc)]
      rfl
  rw [doPortSet_port cmd s p hp, hlock]
  exact ⟨fun hb => by simp [hb], fun hb ht => by simp [hb, ht]⟩

/-- Settles O58: the reading by the table of codes, and each refusal by the judgement of its command on the state
that the taking of the command leaves. -/
theorem refusedCommandsChangeNothing : Obligations.RefusedCommandsChangeNothing := by
  refine ⟨CmdCell.reading_eq_some, fun f => ⟨?_, ?_, ?_, f.word_eq⟩, fun x i => x.frame.word_eq i,
    fun s cmd rest => ⟨fun h => ?_, fun hunit hq hr _ hh => ?_, fun code hunit hq hr hm hh => ?_,
      fun code h hv => ?_, fun p named hn h hp hl => ?_⟩⟩
  · exact congrArg (·.extractLsb' 24 8) f.word_zero.symm
  · exact congrArg (·.extractLsb' 16 8) f.word_zero.symm
  · exact congrArg (fun w : Word => (w.extractLsb' 8 8).toNat) f.word_zero.symm
  · exact congrArg Host.Outcome.next (commandStep_refused h.unit h.queue h.reading h.held rfl)
  · exact congrArg Host.Outcome.next (commandStep_refused hunit hq hr hh rfl)
  · exact exec_denied s cmd rest code hunit hq hr hm hh
  · obtain ⟨hf, hj⟩ := code.judge_badValue cmd (s.taken cmd rest) hv
    exact exec_refused h hf hj
  · have names : ∀ i, cmd.names i = named i := fun i => (hn i).symm
    have link (q : PortId) : ((s.taken cmd rest).port q).link = (s.port q).link := (s.taken_port cmd rest q).1
    have settings (q : PortId) : ((s.taken cmd rest).port q).settings = (s.port q).settings :=
      (s.taken_port cmd rest q).2
    obtain ⟨hbad, huse⟩ := doPortSet_refused cmd (s.taken cmd rest) p hp (by
      simp only [link, settings, clearsCommand_eq, names]
      exact hl)
    refine ⟨fun h9 hc => ?_, fun h9 h11 h15 hr => ?_⟩
    · exact exec_refused h (by decide) (hbad ((badCadence_iff cmd).2 ⟨(names 9).trans h9, hc⟩))
    · refine exec_refused h (by decide) (huse (Bool.eq_false_iff.2 fun hb => ?_)
        ((tooManyReports_iff cmd p _).2 ⟨(names 11).trans h11, h15, by simpa only [settings] using hr⟩))
      obtain ⟨hb9, hb12⟩ := (badCadence_iff cmd).1 hb
      have := h9 ((names 9).symm.trans hb9)
      omega

end Sys2Proof.Machine
end

section
/-! PROOFS. What the release of a queue entry and a port-down keep, and the headers that cost a port its alignment
(R4, R19, R23, R24, R25, R26). -/

namespace Sys2Proof.Machine

/-! ### What a view does not see -/

section Destinations

variable (s : State) (d : Did)

theorem State.setQueue_keeps (c : Cls) (q : List QEntry) : s.Keeps .release (s.setQueue d c q) :=
  .updDid _ _ _ fun _ => rfl

theorem State.setUsage_keeps (c : GClass) (u : Usage) : s.Keeps .release (s.setUsage d c u) :=
  .updDid _ _ _ fun _ => rfl

theorem State.updRefs_keeps (c : GClass) (f : Nat → Nat) : s.Keeps .release (s.updRefs d c f) :=
  .updDid _ _ _ fun _ => rfl

theorem State.countDid_keeps (f : DidCounters → DidCounters) : s.Keeps .release (s.countDid d f) :=
  .updDid _ _ _ fun _ => rfl

end Destinations

/-- A port in no link state but UP has all its counters in sight of a port-down (R69). -/
theorem View.down_counters (P : Port) (h : P.link ≠ .up) : (View.down.port P).counters = P.counters := by
  simp [View.down, View.release, View.event, View.notice, h]

/-! ### Markers and queue entries -/

theorem State.placeMark_keeps (s : State) (k : MarkerKey) : s.Keeps .release (s.placeMark k) :=
  (s.setQueue_keeps k.did k.cls _).trans (.ofRest rfl rfl rfl)

theorem State.makeMark_keeps (s : State) (k : MarkerKey) : s.Keeps .release (s.makeMark k) := by
  obtain ⟨-, e⟩ | ⟨-, -, e⟩ | ⟨-, -, e⟩ := s.makeMark_cases k <;> rw [e]
  · exact s.placeMark_keeps k
  · exact .refl _ _
  · exact .ofRest rfl rfl rfl

theorem State.returnMark_keeps (s : State) : s.Keeps .release s.returnMark := by
  have rest (use : Nat) (owed : List MarkerKey) :
      s.Keeps .release { s with markerUse := use, owedMarkers := owed } := .ofRest rfl rfl rfl
  obtain ⟨-, e⟩ | ⟨-, -, e⟩ | ⟨-, k, more, -, e⟩ := s.returnMark_cases <;> rw [e]
  · exact rest _ _
  · exact rest _ _
  · exact (rest _ _).trans (State.placeMark_keeps _ k)

theorem State.releaseRef_keeps (s : State) (name : Nat) : s.Keeps .release (s.releaseRef name) := by
  unfold State.releaseRef
  split
  · exact .refl _ _
  · split_ifs <;> exact .ofRest rfl rfl rfl

theorem State.releaseCredit_keeps (s : State) (p : PortId) : s.Keeps .release (s.releaseCredit p) :=
  .updPort _ _ _ fun P => by split_ifs <;> rfl

/-- The release of a queue entry keeps all but destinations, credits, markers and stored cells (R119, R124). -/
theorem State.releaseEntry_keeps (s : State) (d : Did) (c : Cls) (e : QEntry) :
    s.Keeps .release (s.releaseEntry d c e) := by
  cases e with
  | cell x =>
    cases c
    case c0 => exact s.releaseCredit_keeps x.src
    all_goals exact s.setUsage_keeps d _ _
  | mref n =>
    cases c
    case c0 => exact s.releaseRef_keeps n
    all_goals exact (s.updRefs_keeps d _ _).trans (State.releaseRef_keeps _ n)
  | mark src mc => exact s.returnMark_keeps

theorem State.flushQueue_keeps (s : State) (d : Did) (c : Cls) : s.Keeps .release (s.flushQueue d c) :=
  (s.setQueue_keeps d c []).trans (.foldl (fun t e => t.releaseEntry_keeps d c e) _ _)

theorem State.flushDid_keeps (s : State) (d : Did) (k : Nat → DidCounters → DidCounters) :
    s.Keeps .release (s.flushDid d k) :=
  (State.Keeps.foldl (fun t c => t.flushQueue_keeps d c) _ _).trans (State.countDid_keeps _ d _)

/-! ### The share of each block in a port-down -/

theorem State.revokeClass_keeps (s : State) (d : Did) (c : GClass) : s.Keeps .grants (s.revokeClass d c) := by
  refine .foldl (fun t p => ?_) _ _
  unfold State.revokeOne
  split
  · exact .refl _ _
  · exact (t.closeGrant_keeps p d c).trans (State.refuse_keeps _ p _).grants_of_event

theorem State.grantDestDown_keeps (s : State) (d : Did) : s.Keeps .grants (s.grantDestDown d) :=
  .foldl (fun t c => (t.revokeClass_keeps d c).trans (State.removeBids_keeps _ d c _).grants_of_event) _ _

theorem State.grantSourceDown_keeps (s : State) (p : PortId) : s.Keeps .down (s.grantSourceDown p) := by
  have dids (f : Did → DidState → DidState) : s.Keeps .down (s.mapDids f) := .mapDids _ _ fun _ _ => rfl
  have port (t : State) : t.Keeps .down (t.updPort p fun P =>
      { P with grants := tabMap (fun _ _ => PerG.const none) P.grants, grantOutbox := [], refusalOutbox := [] }) :=
    .updPort _ _ _ fun _ => rfl
  exact (dids _).trans (port _)

theorem State.arrivalSourceDown_keeps (s : State) (p : PortId) : s.Keeps .release (s.arrivalSourceDown p) := by
  have marks : s.Keeps .release (s.makeMarks (s.sourceDownKeys p)) := .foldl State.makeMark_keeps _ _
  have idle (t : State) : t.Keeps .release (t.updPort p fun P =>
      { P with trains := tabMap (fun _ _ => PerClass.const .idle) P.trains }) :=
    .updPort _ _ _ fun _ => rfl
  exact marks.trans (idle _)

theorem State.discardMarksOf_keeps (s : State) (d : Did) : s.Keeps .release (s.discardMarksOf d) :=
  .ofRest rfl rfl rfl

theorem State.arrivalDestDown_keeps (s : State) (d : Did) : s.Keeps .release (s.arrivalDestDown d) :=
  (s.mapTrainsOf_keeps d fun _ => .idle).release_of_event.trans (State.discardMarksOf_keeps _ d)

theorem State.offerHeld_keeps (s : State) : s.Keeps .down s.offerHeld := by
  unfold State.offerHeld
  split
  · exact .refl _ _
  · split_ifs
    · exact .ofRest rfl rfl rfl
    · exact (s.placeElement_keeps _ _).event_of_notice.release_of_event.down_of_release.trans (.ofRest rfl rfl rfl)
    · exact .refl _ _

theorem State.dropElements_keeps (s : State) (p : PortId) : s.Keeps .down (s.dropElements p) := by
  have held : s.Keeps .down (s.dropHeld p) := by
    unfold State.dropHeld
    split
    · split_ifs
      · exact .ofRest rfl rfl rfl
      · exact .refl _ _
    · exact .refl _ _
  have freed (t : State) (n : Nat) : t.Keeps .down (t.freeElements n) := by
    obtain rfl | hn := n.eq_zero_or_pos
    · exact .refl _ _
    · rw [t.freeElements_pos hn]
      have fewer : t.Keeps .down { t with elementUse := t.elementUse - n } := .ofRest rfl rfl rfl
      exact fewer.trans (State.offerHeld_keeps _)
  have emptied : (s.dropHeld p).Keeps .down ((s.dropHeld p).updPort p fun P => { P with elements := [] }) :=
    .updPort _ _ _ fun _ => rfl
  exact held.trans (emptied.trans (freed _ _))

/-- A port-down keeps the link, the counters, the settings and the monitors of each port, refusals lost of a port in
UP left out, and the command queue (R25). -/
theorem State.blocksDown_keeps (s : State) (p : PortId) : s.Keeps .down (s.blocksDown p) := by
  have source := s.grantSourceDown_keeps p
  have dests (t : State) : t.Keeps .down ((s.didsOf p).foldl State.grantDestDown t) :=
    .foldl (fun u d => (u.grantDestDown_keeps d).down_of_grants) _ _
  have trains (t : State) : t.Keeps .down (t.arrivalSourceDown p) := (t.arrivalSourceDown_keeps p).down_of_release
  have idled (t : State) : t.Keeps .down ((s.didsOf p).foldl State.arrivalDestDown t) :=
    .foldl (fun u d => (u.arrivalDestDown_keeps d).down_of_release) _ _
  have flushed (t : State) : t.Keeps .down ((s.didsOf p).foldl (fun u d => u.flushDid d .addFlush) t) :=
    .foldl (fun u d => (u.flushDid_keeps d _).down_of_release) _ _
  have multicast (t : State) : t.Keeps .down (t.mcSourceDown p) := .updPort _ _ _ fun _ => rfl
  have forgotten (t : State) : t.Keeps .down ((s.didsOf p).foldl State.mcForget t) :=
    .foldl (fun u d => (u.mcForget_keeps d).release_of_event.down_of_release) _ _
  have credits (t : State) : t.Keeps .down (t.updPort p fun P => { P with owed := 0 }) := .updPort _ _ _ fun _ => rfl
  exact source.trans ((dests _).trans ((trains _).trans ((idled _).trans ((flushed _).trans
    ((State.dropElements_keeps _ p).trans ((multicast _).trans ((forgotten _).trans (credits _))))))))

/-! ### A port that loses its alignment -/

/-- What a port is right after an entry to ACQUIRING, in the view of a port-down: the last down cause is recorded
where the port was UP (R21, R25). -/
theorem State.leaveFor_keeps (s : State) (p : PortId) (entry : Port → Port) (why : DownCause) :
    (s.updPort p fun P => { entry P with lastDown := if s.isUp p then why else (entry P).lastDown }).Keeps .down
      (s.leaveFor p entry why) := by
  obtain ⟨hu, e⟩ | ⟨hu, e⟩ := s.leaveFor_cases p entry why <;> rw [e, hu]
  · exact State.blocksDown_keeps _ p
  · exact .refl _ _

theorem State.judgeFault_noCause (s : State) (p : PortId) (hl : (s.port p).link = .acquiring)
    (hf : (s.port p).faultCause = false) : s.judgeFault p = s := by
  simp [State.judgeFault, hl, hf]

/-- A port without a fault cause that goes to ACQUIRING, with the end of the event: what it then is (R21, R25, R35). -/
theorem State.toAcquiring_port (b s : State) (p : PortId) (why : DownCause) (hf : (s.port p).faultCause = false) :
    ∀ t, t = eventEnd b (s.toAcquiring p why) →
      (t.port p).link = .acquiring ∧ (t.port p).failCount = 0 ∧ (t.port p).alignCount = 0 ∧
      (t.port p).partnerAligned = false ∧ (t.port p).holds = ⟨false, false, false, false⟩ ∧
      (t.port p).counters = (s.port p).counters ∧
      (t.port p).lastDown = (if (s.port p).link = .up then why else (s.port p).lastDown) ∧
      t.cmdQueue = s.cmdQueue := by
  rintro _ rfl
  have left := s.leaveFor_keeps p Port.enterAcquiring why
  have hlink : ((s.leaveFor p Port.enterAcquiring why).port p).link = .acquiring := by
    rw [left.portField Port.link (fun _ => rfl), State.updPort_port_self]
    rfl
  have hcause : ((s.leaveFor p Port.enterAcquiring why).port p).faultCause = false := by
    rw [left.portField Port.faultCause (fun _ => rfl), State.updPort_port_self]
    exact hf
  rw [State.toAcquiring, State.judgeFault_noCause _ p hlink hcause]
  have kept := left.trans
    (eventEnd_keeps b (s.leaveFor p Port.enterAcquiring why)).release_of_event.down_of_release
  have field {α : Type} (g : Port → α) (hg : ∀ P, g (View.down.port P) = g P) :=
    (kept.portField g hg p).trans (congrArg g (State.updPort_port_self _ _ _))
  have hacq := field Port.link fun _ => rfl
  refine ⟨hacq, field Port.failCount fun _ => rfl, field Port.alignCount fun _ => rfl,
    field Port.partnerAligned fun _ => rfl, field Port.holds fun _ => rfl, ?_,
    (field Port.lastDown fun _ => rfl).trans ?_, kept.restField State.cmdQueue fun _ => rfl⟩
  · have seen := congrArg Port.counters (kept.port p)
    have seeing (Q : Port) (h : Q.link = .acquiring) : (View.down.port Q).counters = Q.counters :=
      View.down_counters Q (by rw [h]; decide)
    rw [State.updPort_port_self, seeing _ hacq, seeing _ (by rfl)] at seen
    exact seen
  · simp [State.isUp, Port.enterAcquiring, Port.cleared]

/-! ### Headers that fail their check -/

/-- The counters of a port are out of the reach of the notice unit. -/
theorem noticeStep_counters (s t : State) (p : PortId) :
    ((noticeStep s t).port p).counters = (t.port p).counters :=
  (noticeStep_keeps s t).portField Port.counters (fun _ => rfl) p

/-- The drain condition of a DID looks at the DIDs, the records, the unsent grants and the owed markers (R147). -/
theorem State.drained_congr {s t : State} (d : Did) (hd : t.dids = s.dids) (ho : t.owedMarkers = s.owedMarkers)
    (hg : ∀ p, (t.port p).grants = (s.port p).grants) (hb : ∀ p, (t.port p).grantOutbox = (s.port p).grantOutbox) :
    t.drained d = s.drained d := by
  have hdid : t.did d = s.did d := by unfold State.did; rw [hd]
  simp only [State.drained, State.hasQueued, hdid, State.hasGrant, State.grant, Port.grant, hg,
    State.hasOutbox, hb, State.hasOwed, ho]

/-- A change of one port that touches neither records nor unsent grants drains no DID (R147). -/
theorem State.updPort_drained (s : State) (p : PortId) (d : Did) (f : Port → Port)
    (hg : ∀ P, (f P).grants = P.grants) (hb : ∀ P, (f P).grantOutbox = P.grantOutbox) :
    (s.updPort p f).drained d = s.drained d :=
  State.drained_congr d (s.updPort_dids p f) (s.updPort_owedMarkers p f)
    (fun q => by rw [State.updPort_port]; split <;> simp [hg])
    (fun q => by rw [State.updPort_port]; split <;> simp [hb])

/-- An event that changes one port, and of it no part of a move, no watched condition and no notice flag, ends with
nothing more (R147, R148, R174, R177). -/
theorem eventEnd_updPort (s : State) (p : PortId) (f : Port → Port) (hg : ∀ P, (f P).grants = P.grants)
    (hb : ∀ P, (f P).grantOutbox = P.grantOutbox) (hc : ∀ P : Port, (f P).conditions = P.conditions)
    (hn : ∀ P, (f P).noticeFlag = P.noticeFlag) : eventEnd s (s.updPort p f) = s.updPort p f := by
  have flags : ∀ q, ((s.updPort p f).port q).noticeFlag = (s.port q).noticeFlag := fun q => by
    rw [State.updPort_port]; split <;> simp [hn]
  rw [eventEnd_quiet s _ fun d _ hd => (s.updPort_drained p d f hg hb).symm.trans hd]
  refine noticeStep_quiet s _ (fun q => ?_) fun h => ?_
  · rw [State.updPort_port]; split <;> simp [hc]
  · simpa only [State.noticePending, flags, State.updPort_did] using h

/-- A header that fails its check in WAITING or UP is one event (R4). -/
theorem exec_headerFails (s : State) (p : PortId) (c : RawCell) (hp : headerPasses c.header = false)
    (hl : (s.port p).link = .up ∨ (s.port p).link = .waiting) :
    exec (.ingressCell p c) s = .next (eventEnd s (s.headerFails p)) := by
  change Host.Outcome.next (s.cellArrives p c) = _
  unfold State.cellArrives
  rcases hl with hl | hl <;> simp [hl, hp]

/-- The port with one more failure in a row, counted (R4). -/
def Port.failed (P : Port) : Port :=
  { P with failCount := P.failCount + 1, counters := { P.counters with hdrErr := countUp P.counters.hdrErr } }

/-- The failure is counted, and the fourth in a row takes the port to ACQUIRING (R4, R23, R24). -/
theorem State.headerFails_eq (s : State) (p : PortId) :
    s.headerFails p = if 3 ≤ (s.port p).failCount then (s.updPort p Port.failed).toAcquiring p .headerLoss
      else s.updPort p Port.failed := by
  unfold State.headerFails
  rw [State.countPort, State.updPort_updPort]
  change (if Config.failTarget ≤ ((s.updPort p Port.failed).port p).failCount then _ else _) = _
  rw [State.updPort_port_self]
  have : Config.failTarget ≤ (s.port p).failed.failCount ↔ 3 ≤ (s.port p).failCount := by
    simp [Config.failTarget, Port.failed]
  simp only [this]
  rfl

/-- In the states in which nothing is framed a cell leaves the element as it was (R19). -/
theorem exec_ingressCell_unframed (s : State) (p : PortId) (c : RawCell)
    (hl : (s.port p).link ∈ [.disabled, .faulted, .test]) : exec (.ingressCell p c) s = .next s := by
  simp only [List.mem_cons, List.not_mem_nil, or_false] at hl
  change Host.Outcome.next (s.cellArrives p c) = _
  unfold State.cellArrives
  rcases hl with hl | hl | hl <;> simp [hl]

/-- The bytes received in ACQUIRING change their port alone, and of it neither counters nor parts of a move (R21). -/
theorem State.acquire_eq (s : State) (p : PortId) (c : RawCell) :
    ∃ f : Port → Port, s.acquire p c = s.updPort p f ∧ ∀ P, (f P).counters = P.counters ∧
      (f P).grants = P.grants ∧ (f P).grantOutbox = P.grantOutbox := by
  unfold State.acquire
  dsimp only
  split
  · exact ⟨_, rfl, fun _ => ⟨rfl, rfl, rfl⟩⟩
  · split_ifs
    · exact ⟨_, State.updPort_updPort _ _ _ _, fun _ => ⟨rfl, rfl, rfl⟩⟩
    · exact ⟨_, rfl, fun _ => ⟨rfl, rfl, rfl⟩⟩

/-- The bytes received in ACQUIRING count nothing (R4, R19). -/
theorem exec_acquire_counters (s : State) (p : PortId) (c : RawCell) (hl : (s.port p).link = .acquiring) :
    ∃ t, exec (.ingressCell p c) s = .next t ∧ (t.port p).counters = (s.port p).counters := by
  obtain ⟨f, hf, hkept⟩ := s.acquire_eq p c
  refine ⟨eventEnd s (s.acquire p c), ?_, ?_⟩
  · change Host.Outcome.next (s.cellArrives p c) = _
    simp [State.cellArrives, hl]
  · rw [hf, eventEnd_quiet s _ fun d _ hd =>
      (s.updPort_drained p d f (fun P => (hkept P).2.1) fun P => (hkept P).2.2).symm.trans hd,
      noticeStep_counters, State.updPort_port_self, (hkept _).1]

/-- A valid header with aligned clear takes a port out of UP (R24, R26). -/
theorem exec_partnerLost (s : State) (p : PortId) (c : RawCell) (h : IngressHeader)
    (hh : IngressHeader.read c.header = h) (hp : headerPasses c.header = true) (hl : (s.port p).link = .up)
    (ha : h.aligned = false) :
    exec (.ingressCell p c) s = .next (eventEnd s
      ((s.updPort p fun P => { Port.takeFlags h P with failCount := 0 }).toAcquiring p .partner)) := by
  subst hh
  change Host.Outcome.next (s.cellArrives p c) = _
  unfold State.cellArrives
  simp only [hl, hp, ha, if_true, if_false, Bool.false_eq_true]

/-- Settles O15: a failure below the fourth ends its event with nothing more, and the others come to what an entry to
ACQUIRING leaves. -/
theorem headersThatCostAlignment : Obligations.HeadersThatCostAlignment := by
  refine ⟨fun s p c hp => ⟨fun hl hc => ?_, fun hl hc hf => ?_, fun hu hw => ?_⟩, exec_ingressCell_unframed,
    fun s p c hp hl ha hf => ?_⟩
  · rw [exec_headerFails s p c hp hl, s.headerFails_eq, if_neg (by omega), eventEnd_updPort] <;> intros <;> rfl
  · refine ⟨_, exec_headerFails s p c hp hl, ?_⟩
    rw [s.headerFails_eq, if_pos (by omega)]
    obtain ⟨hlink, hfail, halign, hpart, hhold, hcnt, hdown, -⟩ :=
      State.toAcquiring_port s (s.updPort p Port.failed) p .headerLoss
        (by rw [State.updPort_port_self]; exact hf) _ rfl
    rw [State.updPort_port_self] at hcnt hdown
    exact ⟨hlink, hfail, halign, hpart, hhold, hcnt, hdown⟩
  · cases hl : (s.port p).link with
    | up => exact absurd hl hu
    | waiting => exact absurd hl hw
    | acquiring => exact exec_acquire_counters s p c hl
    | disabled | faulted | test => exact ⟨s, exec_ingressCell_unframed s p c (by simp [hl]), rfl⟩
  · refine ⟨_, exec_partnerLost s p c _ rfl hp hl ha, ?_⟩
    obtain ⟨hlink, hfail, -, hpart, hhold, hcnt, hdown, hq⟩ :=
      State.toAcquiring_port s (s.updPort p fun P =>
        { Port.takeFlags (IngressHeader.read c.header) P with failCount := 0 }) p .partner
        (by rw [State.updPort_port_self]; exact hf) _ rfl
    rw [State.updPort_port_self] at hcnt hdown
    exact ⟨hlink, hdown.trans (if_pos hl), hpart, hhold, hfail, hcnt, hq⟩

end Sys2Proof.Machine
end

section
/-! PROOFS. The departure of a queue entry by kind, and the slot that sends it (R47, R57, R102, R114, R119, R121,
R136, R137). -/

namespace Sys2Proof.Machine

/-! ### Queues -/

theorem GClass.cls_injective {g g' : GClass} (h : g.cls = g'.cls) : g = g' := by
  have := congrArg Cls.granted? h
  rwa [GClass.granted_cls, GClass.granted_cls, Option.some.injEq] at this

/-- A class is class 0 or one of the granted classes. -/
theorem Cls.c0_or_granted (c : Cls) : c = .c0 ∨ ∃ g : GClass, c = g.cls := by
  cases c
  · exact .inl rfl
  · exact .inr ⟨.c1, rfl⟩
  · exact .inr ⟨.c2, rfl⟩
  · exact .inr ⟨.c3, rfl⟩

theorem GClass.cls_ne_c0 (g : GClass) : g.cls ≠ .c0 := by
  cases g <;> decide

theorem State.updDid_queue (s : State) (d : Did) {f : DidState → DidState} (hf : ∀ D, (f D).queues = D.queues)
    (d' : Did) (c' : Cls) : (s.updDid d f).queue d' c' = s.queue d' c' := by
  unfold State.queue
  rw [State.updDid_did]
  split <;> simp [hf]

theorem State.setQueue_queue (s : State) (d d' : Did) (c c' : Cls) (q : List QEntry) :
    (s.setQueue d c q).queue d' c' = if (d', c') = (d, c) then q else s.queue d' c' := by
  unfold State.setQueue State.queue
  rw [State.updDid_did]
  by_cases hd : d' = d
  · subst hd
    by_cases hc : c' = c
    · subst hc; simp
    · simp [hc, PerClass.get_set_ne]
  · simp [hd]

theorem State.enqueue_queue (s : State) (d d' : Did) (c c' : Cls) (e : QEntry) :
    (s.enqueue d c e).queue d' c' = s.queue d' c' ++ if (d', c') = (d, c) then [e] else [] := by
  rw [State.enqueue, State.setQueue_queue]
  split_ifs with h
  · obtain ⟨rfl, rfl⟩ := Prod.mk.inj h; rfl
  · simp

theorem State.countPort_port (s : State) (p q : PortId) (f : PortCounters → PortCounters) :
    (s.countPort p f).port q = if q = p then { s.port q with counters := f (s.port q).counters } else s.port q :=
  s.updPort_port p q _

/-! ### The store of a MARK -/

theorem State.setQueue_reachable (s : State) (d : Did) (c : Cls) (q : List QEntry) (e : Did) :
    (s.setQueue d c q).reachable e = s.reachable e := by
  have : (s.setQueue d c q).portOf e = s.portOf e := by
    unfold State.portOf State.setQueue
    rw [State.updDid_did]
    split <;> rfl
  unfold State.reachable
  rw [this]
  rfl

/-- With nothing owed, a returned store lowers the marker use and does no more (R47, R102). -/
theorem State.returnMark_nil (s : State) (ho : s.owedMarkers = []) :
    s.returnMark = { s with markerUse := s.markerUse - 1 } := by
  have hl : s.owedServable = [] := by simp [State.owedServable, ho]
  obtain ⟨-, e⟩ | ⟨-, -, e⟩ | ⟨-, k, more, hk, -⟩ := s.returnMark_cases
  · exact e
  · rw [e, ← ho]
  · rw [hl] at hk; cases hk

/-- A returned store places the oldest owed marker whose DID is reachable, and those ahead of it are discarded
(R102). -/
theorem State.returnMark_serves (s : State) (gone more : List MarkerKey) (k : MarkerKey)
    (ho : s.owedMarkers = gone ++ k :: more) (hgone : ∀ x ∈ gone, s.reachable x.did = false)
    (hk : s.reachable k.did = true) (h1 : 1 ≤ s.markerUse) (h64 : s.markerUse ≤ 64) :
    s.returnMark = { s with markerUse := s.markerUse - 1, owedMarkers := more }.placeMark k := by
  have hl : s.owedServable = k :: more := by
    rw [State.owedServable, ho, List.dropWhile_append_of_pos fun x hx => by simp [hgone x hx]]
    simp [hk]
  obtain ⟨h, -⟩ | ⟨-, h, -⟩ | ⟨-, k', more', h, e⟩ := s.returnMark_cases
  · omega
  · rw [hl] at h; cases h
  · rw [hl] at h
    obtain ⟨rfl, rfl⟩ := List.cons.inj h
    exact e

/-- A returned store touches neither ports nor stored multicast cells (R47, R102). -/
theorem State.returnMark_frame (s : State) : s.returnMark.ports = s.ports ∧ s.returnMark.mcCells = s.mcCells := by
  obtain ⟨-, e⟩ | ⟨-, -, e⟩ | ⟨-, k, more, -, e⟩ := s.returnMark_cases <;> rw [e] <;> exact ⟨rfl, rfl⟩

/-! ### Stored multicast cells -/

/-- The release of a reference touches the stored cells, the pool use and the hold alone (R136, R137). -/
theorem State.releaseRef_frame (s : State) (n : Nat) :
    (s.releaseRef n).ports = s.ports ∧ (s.releaseRef n).dids = s.dids ∧
      (s.releaseRef n).markerUse = s.markerUse ∧ (s.releaseRef n).owedMarkers = s.owedMarkers := by
  unfold State.releaseRef
  split
  · exact ⟨rfl, rfl, rfl, rfl⟩
  · split_ifs <;> exact ⟨rfl, rfl, rfl, rfl⟩

/-- The last reference of a stored cell returns its store, and the hold is judged (R136, R137). -/
theorem State.releaseRef_last (s : State) (n : Nat) (m : McCell) (hm : s.mcCell n = some m) (hf : m.fanOut ≤ 1) :
    (s.releaseRef n).mcCell n = none ∧ (s.releaseRef n).poolUse = s.poolUse - 1 ∧
      (s.releaseRef n).mcHold = holdAfter s.mcHold (s.poolSize - (s.poolUse - 1)) s.holdOn s.holdOff := by
  have : s.releaseRef n = { s with mcCells := s.mcCells.filter fun x => !decide (x.name = n),
                                   poolUse := s.poolUse - 1 }.judgeHold := by
    simp only [State.releaseRef, hm, hf, if_true]
  rw [this]
  refine ⟨List.find?_eq_none.2 fun x hx => ?_, rfl, rfl⟩
  simpa using (List.mem_filter.1 hx).2

/-- A stored cell with more references keeps its store, with its fan-out lowered by one (R136). -/
theorem State.releaseRef_shared (s : State) (n : Nat) (m : McCell) (hm : s.mcCell n = some m) (hf : 1 < m.fanOut) :
    (s.releaseRef n).mcCell n = some { m with fanOut := m.fanOut - 1 } ∧ (s.releaseRef n).poolUse = s.poolUse ∧
      (s.releaseRef n).mcHold = s.mcHold := by
  have : s.releaseRef n = { s with mcCells := s.mcCells.map fun x =>
      if x.name = n then { x with fanOut := x.fanOut - 1 } else x } := by
    simp only [State.releaseRef, hm, show ¬ m.fanOut ≤ 1 by omega, if_false]
  have name : ∀ x : McCell, (if x.name = n then { x with fanOut := x.fanOut - 1 } else x).name = x.name := by
    intro x; split <;> rfl
  have hn : m.name = n := by simpa using List.find?_some hm
  rw [this]
  refine ⟨?_, rfl, rfl⟩
  unfold State.mcCell at hm ⊢
  simp only [List.find?_map, Function.comp_def, name, hm, Option.map_some, hn, if_true]

/-! ### The release of an entry -/

theorem State.releaseEntry_cell (s : State) (d : Did) (g : GClass) (x : StoredCell) :
    s.releaseEntry d g.cls (.cell x) = s.updUsage d g Usage.release := by
  cases g <;> rfl

theorem State.releaseEntry_mref (s : State) (d : Did) (g : GClass) (n : Nat) :
    s.releaseEntry d g.cls (.mref n) = (s.updRefs d g (· - 1)).releaseRef n := by
  cases g <;> rfl

/-- An entry that is no class-0 cell is released without a change of a port (R119). -/
theorem State.releaseEntry_ports (s : State) (d : Did) (c : Cls) (e : QEntry)
    (h : ∀ x, e = .cell x → c ≠ .c0) : (s.releaseEntry d c e).ports = s.ports := by
  obtain rfl | ⟨g, rfl⟩ := Cls.c0_or_granted c
  · cases e with
    | cell x => exact absurd rfl (h x rfl)
    | mref n => exact (s.releaseRef_frame n).1
    | mark src mc => exact s.returnMark_frame.1
  · cases e with
    | cell x => rw [s.releaseEntry_cell]; rfl
    | mref n => rw [s.releaseEntry_mref]; exact (State.releaseRef_frame _ n).1
    | mark src mc => exact s.returnMark_frame.1

/-- The release of an entry changes no counter of a port (R119, R179). -/
theorem State.releaseEntry_counters (s : State) (d : Did) (c : Cls) (e : QEntry) (q : PortId) :
    ((s.releaseEntry d c e).port q).counters = (s.port q).counters := by
  by_cases h : ∀ x, e = .cell x → c ≠ .c0
  · unfold State.port
    rw [s.releaseEntry_ports d c e h]
  · simp only [not_forall, ne_eq, not_not] at h
    obtain ⟨x, rfl, rfl⟩ := h
    change ((s.releaseCredit x.src).port q).counters = _
    rw [State.releaseCredit_port]
    split <;> rfl

/-- The release of an entry that is no MARK leaves the queues and the markers (R119). -/
theorem State.releaseEntry_queues (s : State) (d : Did) (c : Cls) (e : QEntry) (h : ∀ src mc, e ≠ .mark src mc) :
    (s.releaseEntry d c e).owedMarkers = s.owedMarkers ∧ (s.releaseEntry d c e).markerUse = s.markerUse ∧
      ∀ d' c', (s.releaseEntry d c e).queue d' c' = s.queue d' c' := by
  have ref (t : State) (n : Nat) : (t.releaseRef n).owedMarkers = t.owedMarkers ∧
      (t.releaseRef n).markerUse = t.markerUse ∧ ∀ d' c', (t.releaseRef n).queue d' c' = t.queue d' c' := by
    obtain ⟨-, hd, hm, ho⟩ := t.releaseRef_frame n
    exact ⟨ho, hm, fun d' c' => by unfold State.queue State.did; rw [hd]⟩
  obtain rfl | ⟨g, rfl⟩ := Cls.c0_or_granted c
  · cases e with
    | cell x => exact ⟨rfl, rfl, fun _ _ => rfl⟩
    | mref n => exact ref s n
    | mark src mc => exact absurd rfl (h src mc)
  · cases e with
    | cell x =>
      rw [s.releaseEntry_cell]
      exact ⟨rfl, rfl, s.updDid_queue d fun _ => rfl⟩
    | mref n =>
      rw [s.releaseEntry_mref]
      obtain ⟨ho, hm, hq⟩ := ref (s.updRefs d g (· - 1)) n
      have kept : ∀ d' c', (s.updRefs d g (· - 1)).queue d' c' = s.queue d' c' := s.updDid_queue d fun _ => rfl
      exact ⟨ho, hm, fun d' c' => (hq d' c').trans (kept d' c')⟩
    | mark src mc => exact absurd rfl (h src mc)

/-! ### The departure -/

/-- The state that the departure of `e` from the queue (d, c) leaves, `rest` behind it: its store is released, and a
cell is counted out (R119). -/
def State.departed (s : State) (p : PortId) (d : Did) (c : Cls) (rest : List QEntry) (e : QEntry) : State :=
  ((s.setQueue d c rest).releaseEntry d c e).countPort p .incCellsOut

theorem State.depart_head (s : State) (p : PortId) (d : Did) (c : Cls) (e : QEntry) (rest : List QEntry)
    (hq : s.queue d c = e :: rest) :
    s.depart p (.queue d c) = (s.entryCell d c e, s.departed p d c rest e) := by
  unfold State.depart State.departed
  simp only [hq]

section Departed

variable (s : State) (p : PortId) (d : Did) (c : Cls) (rest : List QEntry)

theorem State.departed_counters (e : QEntry) : ((s.departed p d c rest e).port p).counters =
    { (s.port p).counters with cellsOut := countUp (s.port p).counters.cellsOut } := by
  rw [State.departed, State.countPort_port, if_pos rfl]
  exact congrArg PortCounters.incCellsOut (State.releaseEntry_counters _ d c e p)

theorem State.departed_queue (e : QEntry) (d' : Did) (c' : Cls) :
    (s.departed p d c rest e).queue d' c' = ((s.setQueue d c rest).releaseEntry d c e).queue d' c' := rfl

/-- The queues and markers after the departure of an entry that is no MARK, or of a MARK while nothing is owed. -/
theorem State.departed_queues (e : QEntry) (h : (∀ src mc, e ≠ .mark src mc) ∨ s.owedMarkers = []) :
    (s.departed p d c rest e).queue d c = rest ∧ (s.departed p d c rest e).owedMarkers = s.owedMarkers ∧
      ∀ d' c', (d', c') ≠ (d, c) → (s.departed p d c rest e).queue d' c' = s.queue d' c' := by
  have released : ((s.setQueue d c rest).releaseEntry d c e).owedMarkers = s.owedMarkers ∧
      ∀ d' c', ((s.setQueue d c rest).releaseEntry d c e).queue d' c' = (s.setQueue d c rest).queue d' c' := by
    by_cases hm : ∀ src mc, e ≠ .mark src mc
    · obtain ⟨ho, -, hq⟩ := (s.setQueue d c rest).releaseEntry_queues d c e hm
      exact ⟨ho, hq⟩
    · simp only [not_forall, ne_eq, not_not] at hm
      obtain ⟨src, mc, rfl⟩ := hm
      change (s.setQueue d c rest).returnMark.owedMarkers = _ ∧
        ∀ d' c', (s.setQueue d c rest).returnMark.queue d' c' = _
      rw [State.returnMark_nil (s.setQueue d c rest) (h.resolve_left fun hn => hn src mc rfl)]
      exact ⟨rfl, fun _ _ => rfl⟩
  obtain ⟨ho, hq⟩ := released
  refine ⟨?_, ho, fun d' c' hne => ?_⟩
  · rw [State.departed_queue, hq, State.setQueue_queue, if_pos rfl]
  · rw [State.departed_queue, hq, State.setQueue_queue, if_neg hne]

/-- A unicast or class-0 cell leaves the markers and the stored multicast cells; of class 1..3 it releases a cell of
its usage, and of class 0 the credit of its source (R57, R155). -/
theorem State.departed_cell (x : StoredCell) :
    (s.departed p d c rest (.cell x)).markerUse = s.markerUse ∧
    (s.departed p d c rest (.cell x)).mcCells = s.mcCells ∧
    (∀ g : GClass, c = g.cls →
      (s.departed p d c rest (.cell x)).usage d g =
        { occupied := (s.usage d g).occupied - 1, reserved := (s.usage d g).reserved } ∧
      ((s.departed p d c rest (.cell x)).port x.src).held = (s.port x.src).held ∧
      ((s.departed p d c rest (.cell x)).port x.src).owed = (s.port x.src).owed) ∧
    (c = .c0 → 1 ≤ (s.port x.src).held →
      ((s.departed p d c rest (.cell x)).port x.src).held = (s.port x.src).held - 1 ∧
      ((s.departed p d c rest (.cell x)).port x.src).owed =
        (if (s.port x.src).link = .up then (s.port x.src).owed + 1 else (s.port x.src).owed)) := by
  have field {α : Type} (g : Port → α) (hg : ∀ (P : Port) k, g { P with counters := k } = g P) (q : PortId) :
      g ((s.departed p d c rest (.cell x)).port q) =
        g (((s.setQueue d c rest).releaseEntry d c (.cell x)).port q) := by
    rw [State.departed, State.countPort_port]
    split
    · exact hg _ _
    · rfl
  obtain rfl | ⟨g, rfl⟩ := Cls.c0_or_granted c
  · refine ⟨rfl, rfl, fun g hg => absurd hg.symm (GClass.cls_ne_c0 g), fun _ hh => ?_⟩
    have credited : ((s.setQueue d .c0 rest).releaseEntry d .c0 (.cell x)).port x.src =
        { s.port x.src with
          held := (s.port x.src).held - 1,
          owed := if (s.port x.src).link = .up then (s.port x.src).owed + 1 else (s.port x.src).owed } :=
      ((s.setQueue d .c0 rest).releaseCredit_port x.src x.src).trans
        (if_pos ⟨rfl, (by omega : (s.port x.src).held ≠ 0)⟩)
    exact ⟨(field Port.held (fun _ _ => rfl) _).trans (congrArg Port.held credited),
      (field Port.owed (fun _ _ => rfl) _).trans (congrArg Port.owed credited)⟩
  · have ports (q : PortId) : ((s.setQueue d g.cls rest).releaseEntry d g.cls (.cell x)).port q = s.port q := by
      unfold State.port
      rw [State.releaseEntry_ports _ d _ _ fun _ _ => GClass.cls_ne_c0 g]
      rfl
    have use : (s.departed p d g.cls rest (.cell x)).usage d g = Usage.release (s.usage d g) := by
      rw [State.departed, State.releaseEntry_cell]
      simp [State.usage, State.countPort, State.updUsage, State.setUsage, State.setQueue]
    refine ⟨?_, ?_, fun g' hg' => ?_, fun h0 => absurd h0 (GClass.cls_ne_c0 g)⟩
    · exact ((s.setQueue d g.cls rest).releaseEntry_queues d g.cls (.cell x) (by simp)).2.1
    · rw [State.departed, State.releaseEntry_cell]; rfl
    · obtain rfl := GClass.cls_injective hg'
      exact ⟨use, (field Port.held (fun _ _ => rfl) _).trans (congrArg Port.held (ports _)),
        (field Port.owed (fun _ _ => rfl) _).trans (congrArg Port.owed (ports _))⟩

/-- The release of the reference at the head of a queue: its count falls, and the cell it names is released on the
pool and the hold as they were (R135, R136, R137). -/
theorem State.departed_mref (n : Nat) :
    (s.departed p d c rest (.mref n)).markerUse = s.markerUse ∧
    (∀ g : GClass, c = g.cls →
      ((s.departed p d c rest (.mref n)).did d).mcRefs.get g = (s.did d).mcRefs.get g - 1) ∧
    (s.departed p d c rest (.mref n)).mcCell n = (s.releaseRef n).mcCell n ∧
    (s.departed p d c rest (.mref n)).poolUse = (s.releaseRef n).poolUse ∧
    (s.departed p d c rest (.mref n)).mcHold = (s.releaseRef n).mcHold := by
  have same (t : State) (hc : t.mcCells = s.mcCells) (hu : t.poolUse = s.poolUse) (hh : t.mcHold = s.mcHold)
      (hs : t.poolSize = s.poolSize) (hon : t.holdOn = s.holdOn) (hoff : t.holdOff = s.holdOff) :
      (t.releaseRef n).mcCell n = (s.releaseRef n).mcCell n ∧ (t.releaseRef n).poolUse = (s.releaseRef n).poolUse ∧
        (t.releaseRef n).mcHold = (s.releaseRef n).mcHold := by
    have hm : t.mcCell n = s.mcCell n := by unfold State.mcCell; rw [hc]
    unfold State.releaseRef
    rw [hm]
    split
    · exact ⟨hm, hu, hh⟩
    · split_ifs <;> simp [State.mcCell, State.judgeHold, State.freeMulticast, hc, hu, hh, hs, hon, hoff]
  refine ⟨((s.setQueue d c rest).releaseEntry_queues d c (.mref n) (by simp)).2.1, ?_, ?_⟩
  · rintro g rfl
    have hd : (s.departed p d g.cls rest (.mref n)).did d =
        ((s.setQueue d g.cls rest).updRefs d g (· - 1)).did d := by
      rw [State.departed, State.releaseEntry_mref]
      unfold State.did
      exact congrArg (·[d]) (State.releaseRef_frame _ n).2.1
    rw [hd]
    simp [State.updRefs, State.setQueue]
  · obtain rfl | ⟨g, rfl⟩ := Cls.c0_or_granted c
    · exact same (s.setQueue d .c0 rest) rfl rfl rfl rfl rfl rfl
    · rw [State.departed, State.releaseEntry_mref]
      exact same ((s.setQueue d g.cls rest).updRefs d g (· - 1)) rfl rfl rfl rfl rfl rfl

/-- The store of a MARK that leaves places the oldest owed marker that can be placed (R47, R102). -/
theorem State.departed_mark_serves (src : PortId) (mc : Bool) (gone more : List MarkerKey) (k : MarkerKey)
    (ho : s.owedMarkers = gone ++ k :: more) (hgone : ∀ x ∈ gone, s.reachable x.did = false)
    (hk : s.reachable k.did = true) (h1 : 1 ≤ s.markerUse) (h64 : s.markerUse ≤ 64) :
    (s.departed p d c rest (.mark src mc)).markerUse = s.markerUse ∧
    (s.departed p d c rest (.mark src mc)).owedMarkers = more ∧
    ∀ d' c', (s.departed p d c rest (.mark src mc)).queue d' c' =
      (if (d', c') = (d, c) then rest else s.queue d' c') ++
        (if (d', c') = (k.did, k.cls) then [.mark k.src k.mc] else []) := by
  have released : (s.setQueue d c rest).returnMark = _ := State.returnMark_serves _ gone more k ho
    (fun x hx => (s.setQueue_reachable d c rest x.did).trans (hgone x hx))
    ((s.setQueue_reachable d c rest k.did).trans hk) h1 h64
  have hd : s.departed p d c rest (.mark src mc) = _ := congrArg (State.countPort · p .incCellsOut) released
  rw [hd]
  refine ⟨Nat.sub_add_cancel h1, rfl, fun d' c' => ?_⟩
  rw [← s.setQueue_queue d d' c c' rest]
  exact State.enqueue_queue _ k.did d' k.cls c' _

end Departed

/-! ### The slot -/

/-- The round state as the slot finds it: the pattern in effect, and no wrap pending (R114). -/
theorem Round.opened_eq (r : Round) (stored : List Bool) :
    r.opened stored = { r with pattern := if r.wraps then stored else r.pattern, wraps := false } := by
  obtain ⟨pattern, position, wraps, budget, c0Pointer, didPointer⟩ := r
  cases wraps <;> rfl

/-- The cell fields, the payload and the round state of a slot that selects the head of a queue (R113, R114, R119,
R121): `x` is the state the selection leaves, and `w` the state after the departure and what it brings about. -/
theorem exec_slot_queue (s x u w : State) (p : PortId) (d : Did) (c : Cls) (r : Round)
    (sent : CellFields × Payload) (hl : (s.port p).link = .up)
    (hs : ((s.port p).round.opened (s.port p).settings.cadence).sends = true)
    (hsel : (s.updPort p fun P => { P with
      round := ((s.port p).round.opened (s.port p).settings.cadence).advance }).select p = (some (.queue d c), r))
    (hx : x = (s.updPort p fun P => { P with
      round := ((s.port p).round.opened (s.port p).settings.cadence).advance }).updPort p fun P =>
        { P with round := r })
    (hd : x.depart p (.queue d c) = (sent, u)) (hw : w = eventEnd x u) :
    exec (.slot p) s = .next (eventEnd w (w.assemble p sent.1 sent.2)) := by
  change Host.Outcome.next (s.slotOpens p) = _
  unfold State.slotOpens
  simp only [hl, State.upSlot, hs, if_true, hsel, ← hx, hd, ← hw]

/-- All but what the departure of a queue entry changes of a port: its credits, its counters and what the end of an
event changes (R119). -/
def View.departure : View where
  port P := { View.release.port P with counters := .zero }
  did := View.release.did
  rest := View.release.rest

theorem State.Keeps.departure_of_release {s t : State} (h : s.Keeps .release t) : s.Keeps .departure t := by
  refine h.coarsen (fun P => ?_) (fun _ => rfl) fun _ => rfl
  by_cases hl : P.link = .up <;> simp [View.departure, View.release, View.event, View.notice, hl]

/-- The departure of the head of a queue, with the end of its event, keeps the round state, the records and the
unsent grants of each port, and the clock (R119). -/
theorem State.depart_keeps (s : State) (p : PortId) (d : Did) (c : Cls) :
    s.Keeps .departure (eventEnd s (s.depart p (.queue d c)).2) := by
  have gone : s.Keeps .departure (s.depart p (.queue d c)).2 := by
    have counted (t : State) : t.Keeps .departure (t.countPort p .incCellsOut) := .updPort _ _ _ fun _ => rfl
    cases hq : s.queue d c with
    | nil => simp only [State.depart, hq]; exact .refl _ _
    | cons e rest =>
      rw [s.depart_head p d c e rest hq]
      have released := (s.setQueue_keeps d c rest).trans (State.releaseEntry_keeps _ d c e)
      exact released.departure_of_release.trans (counted _)
  exact gone.trans (eventEnd_keeps _ _).release_of_event.departure_of_release

/-! ### The header -/

theorem Port.setGrant_grant (P : Port) (d e : Did) (c g : GClass) (x : Option GrantRec) :
    (P.setGrant d c x).grant e g = if d = e ∧ c = g then x else P.grant e g := by
  unfold Port.setGrant Port.grant
  by_cases hd : d = e
  · subst hd
    by_cases hc : c = g
    · subst hc; simp
    · simp [hc, PerG.get_set_ne _ _ (Ne.symm hc)]
  · have : d.val ≠ e.val := fun h => hd (Fin.ext h)
    simp [hd, this]

/-- The grants that leave start the deadlines of their records, and touch nothing else of the port (R78). -/
theorem Port.startDeadlines (time : Nat) (P : Port) (es : List GrantEntry) :
    (∃ G, es.foldl (Port.startDeadline time) P = { P with grants := G }) ∧
    ∀ (e : Did) (g : GClass), (es.foldl (Port.startDeadline time) P).grant e g = (P.grant e g).map fun y =>
      if es.any (fun x => decide (x.did = e ∧ x.cls = g)) then { y with deadline := some time } else y := by
  induction es generalizing P with
  | nil => exact ⟨⟨P.grants, rfl⟩, fun e g => by simp⟩
  | cons x es ih =>
    obtain ⟨⟨G, hG⟩, hgrant⟩ := ih (Port.startDeadline time P x)
    have one : (∃ H, Port.startDeadline time P x = { P with grants := H }) ∧
        ∀ (e : Did) (g : GClass), (Port.startDeadline time P x).grant e g = (P.grant e g).map fun y =>
          if x.did = e ∧ x.cls = g then { y with deadline := some time } else y := by
      unfold Port.startDeadline
      split
      next hn =>
        refine ⟨⟨P.grants, rfl⟩, fun e g => ?_⟩
        by_cases h : x.did = e ∧ x.cls = g
        · obtain ⟨rfl, rfl⟩ := h
          rw [hn]; rfl
        · simp [h]
      next y hy =>
        refine ⟨⟨_, rfl⟩, fun e g => ?_⟩
        rw [Port.setGrant_grant]
        by_cases h : x.did = e ∧ x.cls = g
        · obtain ⟨rfl, rfl⟩ := h
          simp [hy]
        · simp [h]
    obtain ⟨⟨H, hH⟩, hone⟩ := one
    refine ⟨⟨G, ?_⟩, fun e g => ?_⟩
    · rw [List.foldl_cons, hG, hH]
    · rw [List.foldl_cons, hgrant, hone, Option.map_map]
      congr 1
      funext y
      by_cases h : x.did = e ∧ x.cls = g <;> simp [h]

/-- What the header assembly leaves: the cell sent, and outboxes, credits and deadlines of its port (R121). -/
theorem State.assemble_spec (w : State) (p : PortId) (c : CellFields) (payload : Payload) :
    ((w.assemble p c payload).port p).sent = .cell (egressCell c (w.linkFields p) payload) ∧
    ((w.assemble p c payload).port p).round = (w.port p).round ∧
    ((w.assemble p c payload).port p).owed = (w.port p).owed - min (w.port p).owed 3 ∧
    ((w.assemble p c payload).port p).grantOutbox = (w.port p).grantOutbox.drop 3 ∧
    ((w.assemble p c payload).port p).refusalOutbox = (w.port p).refusalOutbox.drop 1 ∧
    (w.assemble p c payload).dids = w.dids ∧
    (∀ (e : Did) (g : GClass), (w.assemble p c payload).grant p e g = (w.grant p e g).map fun y =>
      if ((w.port p).grantOutbox.take 3).any (fun x => decide (x.did = e ∧ x.cls = g))
      then { y with deadline := some (w.now + w.lifetime) } else y) ∧
    ∀ q : PortId, q ≠ p → (w.assemble p c payload).port q = w.port q := by
  obtain ⟨⟨G, hG⟩, hgrant⟩ := Port.startDeadlines (w.now + w.lifetime) (w.port p) ((w.port p).grantOutbox.take 3)
  have hport : (w.assemble p c payload).port p =
      { (w.port p) with
        grants := (((w.port p).grantOutbox.take 3).foldl (Port.startDeadline (w.now + w.lifetime)) (w.port p)).grants,
        grantOutbox := (w.port p).grantOutbox.drop 3, refusalOutbox := (w.port p).refusalOutbox.drop 1,
        owed := (w.port p).owed - min (w.port p).owed 3,
        sent := .cell (egressCell c (w.linkFields p) payload) } := by
    rw [State.assemble, State.send, State.leaveHeader, State.updPort_updPort, State.updPort_port_self]
    simp only [Config.grantSlots, Config.creditsPerHeader, hG]
  refine ⟨by rw [hport], by rw [hport], by rw [hport], by rw [hport], by rw [hport], rfl, fun e g => ?_, fun q hq => ?_⟩
  · rw [State.grant, hport]
    exact hgrant e g
  · rw [State.assemble, State.send, State.leaveHeader, State.updPort_port_ne _ _ hq, State.updPort_port_ne _ _ hq]

/-- Settles O27: the first half by the kind of the entry, and the second by the stages of the slot, the departure
with its end keeping what the header is assembled from. -/
theorem departuresRelease : Obligations.DeparturesRelease := by
  refine ⟨fun s t p d c e rest sent hq hdep => ?_, ?_⟩
  · rw [s.depart_head p d c e rest hq] at hdep
    obtain ⟨rfl, rfl⟩ := Prod.mk.inj hdep
    refine ⟨s.departed_counters p d c rest e, s.departed_queues p d c rest e, ?_⟩
    cases e with
    | cell x =>
      obtain ⟨hm, hc, hg, h0⟩ := s.departed_cell p d c rest x
      exact ⟨hm, hc, rfl, hg, h0⟩
    | mref n =>
      obtain ⟨hm, hr, hcell, hpool, hhold⟩ := s.departed_mref p d c rest n
      refine ⟨hm, hr, fun m hmc => ⟨by simp only [State.entryCell, hmc]; rfl, fun hf => ?_, fun hf => ?_⟩⟩
      · obtain ⟨lc, lp, lh⟩ := s.releaseRef_last n m hmc hf
        rw [hcell, hpool, hhold, lc, lp, lh]
        exact ⟨rfl, rfl, rfl⟩
      · rw [hcell, hpool, hhold]
        exact s.releaseRef_shared n m hmc hf
    | mark src mc =>
      refine ⟨rfl, (State.returnMark_frame (s.setQueue d c rest)).2, fun ho => ?_, fun gone more k =>
        s.departed_mark_serves p d c rest src mc gone more k⟩
      have released := State.returnMark_nil (s.setQueue d c rest) ho
      exact congrArg State.markerUse released
  · intro s s' x u w p d c pat r sent hl hpat hsend hs' hsel hx hdep hw
    have hopen : (s.port p).round.opened (s.port p).settings.cadence =
        { (s.port p).round with pattern := pat, wraps := false } := by rw [Round.opened_eq, hpat]
    have hadv : s' = s.updPort p fun P => { P with
        round := ((s.port p).round.opened (s.port p).settings.cadence).advance } := by
      rw [hs', hopen]
      exact s.updPort_congr p rfl
    have hexec := exec_slot_queue s x u w p d c r sent hl
      (by rw [hopen]; simp [Round.sends, List.getD_eq_getElem?_getD, hsend]) (hadv ▸ hsel) (hadv ▸ hx.symm) hdep hw
    have hxp : x.port p = { s.port p with round := r } := by
      rw [← hx, State.updPort_port_self, hs', State.updPort_port_self]
    have kept : x.Keeps .departure w := by
      have := x.depart_keeps p d c
      rwa [hdep, ← hw] at this
    have plane : w.plane = s.plane := (kept.restField State.plane fun _ => rfl).trans (by rw [← hx, hs']; rfl)
    have now : w.now = s.now := (kept.restField State.now fun _ => rfl).trans (by rw [← hx, hs']; rfl)
    have life : w.lifetime = s.lifetime := (kept.restField State.lifetime fun _ => rfl).trans (by rw [← hx, hs']; rfl)
    have round : (w.port p).round = r := (kept.portField Port.round (fun _ => rfl) p).trans (by rw [hxp])
    have box : (w.port p).grantOutbox = (s.port p).grantOutbox :=
      (kept.portField Port.grantOutbox (fun _ => rfl) p).trans (by rw [hxp])
    have grant (e : Did) (g : GClass) : w.grant p e g = s.grant p e g :=
      (kept.portField (fun P => P.grant e g) (fun _ => rfl) p).trans (by rw [hxp]; rfl)
    obtain ⟨hsent, hround, howed, hgbox, hrbox, hdids, hgrant, hother⟩ := w.assemble_spec p sent.1 sent.2
    refine ⟨_, hexec, ?_, hround.trans round, howed, hgbox.trans (by rw [box]), hrbox, hdids, fun e g => ?_, hother⟩
    · rw [hsent, State.linkFields, plane, box]
      rfl
    · rw [hgrant, grant, box, now, life]

end Sys2Proof.Machine
end

section
/-! PROOFS. The formats of chapter 1: the two checks, the headers, and the frames (R2, R3, R7 to R12, R17). -/

namespace Sys2Proof.Machine

/-! ### The checks -/

/-- A sequence in which each value is the image of the one before is the function repeated. -/
theorem repeat_of_steps {α : Type} (f : α → α) (r : Nat → α) (n : Nat) (h : ∀ i, i < n → r (i + 1) = f (r i)) :
    r n = Nat.repeat f n (r 0) := by
  induction n with
  | zero => rfl
  | succ n ih => rw [h n (by omega), ih fun i hi => h i (by omega)]; rfl

/-- The header check of one byte more (R2). -/
theorem headerCheck_concat (l : List Byte) (b : Byte) :
    headerCheck (l ++ [b]) = ~~~ Nat.repeat crc8Bit 8 (~~~ headerCheck l ^^^ b) := by
  simp [headerCheck, crc8Byte]

/-- The payload check of one byte more, which enters at the high end of the register (R3). -/
theorem payloadCheck_concat (l : List Byte) (b : Byte) :
    payloadCheck (l ++ [b]) = Nat.repeat crc16Bit 8 (payloadCheck l ^^^ (b ++ (0 : Byte))) := by
  have high : b.setWidth 16 <<< 8 = b ++ (0 : Byte) := by
    rw [BitVec.shiftLeft_eq_concat_of_lt (by decide), BitVec.extractLsb'_setWidth_of_le (by decide)]
    simp
  simp only [payloadCheck, List.foldl_append, List.foldl_cons, List.foldl_nil, crc16Byte, high]

/-! ### The egress header -/

/-- The two bytes of a grant slot (R12). -/
theorem grantBytes_two (g : Option GrantEntry) : ∃ x y, grantBytes g = [x, y] := by
  cases g <;> exact ⟨_, _, rfl⟩

theorem egressFieldBytes_length (c : CellFields) (l : LinkFields) : (egressFieldBytes c l).length = 13 := by
  obtain ⟨_, _, h0⟩ := grantBytes_two l.grants[0]?
  obtain ⟨_, _, h1⟩ := grantBytes_two l.grants[1]?
  obtain ⟨_, _, h2⟩ := grantBytes_two l.grants[2]?
  simp [egressFieldBytes, h0, h1, h2]

/-- The bytes of an egress header before its own check (R121). -/
def checkedBytes (c : CellFields) (l : LinkFields) (payload : Payload) : List Byte :=
  egressFieldBytes c l ++ [(payloadCheck payload.toList).extractLsb' 8 8, (payloadCheck payload.toList).extractLsb' 0 8]

theorem checkedBytes_length (c : CellFields) (l : LinkFields) (payload : Payload) :
    (checkedBytes c l payload).length = 15 := by
  simp [checkedBytes, egressFieldBytes_length]

theorem egressCell_header_get (c : CellFields) (l : LinkFields) (payload : Payload) (i : Nat) (hi : i < 16) :
    (egressCell c l payload).header[i] =
      (checkedBytes c l payload ++ [headerCheck (checkedBytes c l payload)]).getD i 0 := by
  simp [egressCell, checkedBytes]

/-- The header of an egress cell, byte by byte: its fields, the payload check, and the header check over both. -/
theorem egressCell_header (c : CellFields) (l : LinkFields) (payload : Payload) :
    (egressCell c l payload).header.toList =
      checkedBytes c l payload ++ [headerCheck (checkedBytes c l payload)] := by
  refine List.ext_getElem (by simp [checkedBytes_length]) fun i h1 h2 => ?_
  rw [Vector.getElem_toList, egressCell_header_get c l payload i (by simpa using h1), List.getD_eq_getElem _ _ h2]

/-- The header check of an egress cell matches at the card (R2). -/
theorem egressCell_headerPasses (c : CellFields) (l : LinkFields) (payload : Payload) :
    headerPasses (egressCell c l payload).header = true := by
  have hlen := checkedBytes_length c l payload
  rw [headerPasses, decide_eq_true_eq, egressCell_header, egressCell_header_get c l payload 15 (by decide),
    List.take_left' hlen]
  simp [List.getD_eq_getElem?_getD, hlen]

/-- The payload check of an egress cell matches at the card (R3). -/
theorem egressCell_payloadPasses (c : CellFields) (l : LinkFields) (payload : Payload) :
    payloadPasses (egressCell c l payload) = true := by
  have hlen := egressFieldBytes_length c l
  have joined : ∀ w : BitVec 16, w.extractLsb' 8 8 ++ w.extractLsb' 0 8 = w := fun w =>
    (BitVec.extractLsb'_append_extractLsb'_eq_extractLsb' rfl).trans BitVec.extractLsb'_eq_self
  have h13 : (egressCell c l payload).header[13] = (payloadCheck payload.toList).extractLsb' 8 8 := by
    rw [egressCell_header_get c l payload 13 (by decide)]
    simp [List.getD_eq_getElem?_getD, checkedBytes, hlen]
  have h14 : (egressCell c l payload).header[14] = (payloadCheck payload.toList).extractLsb' 0 8 := by
    rw [egressCell_header_get c l payload 14 (by decide)]
    simp [List.getD_eq_getElem?_getD, checkedBytes, hlen]
  rw [payloadPasses, decide_eq_true_eq, h13, h14, joined]
  rfl

/-! ### Frames -/

/-- Byte `4 i + k` of the payload that carries a frame is byte `k` of its word `i` (section 1.7). -/
theorem frameBytes_get (f : Frame) (i : Fin 32) (k : Nat) (hk : k < 4) :
    (frameBytes f)[4 * i.val + k]'(by omega) = f[i].extractLsb' (8 * (3 - k)) 8 := by
  have hdiv : (4 * i.val + k) / 4 = i.val := by omega
  have hmod : (4 * i.val + k) % 4 = k := by omega
  simp [frameBytes, hdiv, hmod]

/-- A frame sent in a payload is the frame read from it (section 1.7). -/
theorem payloadFrame_frameBytes (f : Frame) : payloadFrame (frameBytes f) = f := by
  have joined : ∀ w : BitVec 32,
      w.extractLsb' 24 8 ++ w.extractLsb' 16 8 ++ w.extractLsb' 8 8 ++ w.extractLsb' 0 8 = w := by
    intro w
    rw [BitVec.extractLsb'_append_extractLsb'_eq_extractLsb' (start₂ := 24) (start₁ := 16) rfl,
      BitVec.extractLsb'_append_extractLsb'_eq_extractLsb' (start₂ := 16) (start₁ := 8) rfl,
      BitVec.extractLsb'_append_extractLsb'_eq_extractLsb' (start₂ := 8) (start₁ := 0) rfl]
    exact BitVec.extractLsb'_eq_self
  ext1 i hi
  have h0 : (frameBytes f)[4 * i]'(by omega) = f[i].extractLsb' 24 8 := frameBytes_get f ⟨i, hi⟩ 0 (by decide)
  have h1 : (frameBytes f)[4 * i + 1]'(by omega) = f[i].extractLsb' 16 8 := frameBytes_get f ⟨i, hi⟩ 1 (by decide)
  have h2 : (frameBytes f)[4 * i + 2]'(by omega) = f[i].extractLsb' 8 8 := frameBytes_get f ⟨i, hi⟩ 2 (by decide)
  have h3 : (frameBytes f)[4 * i + 3]'(by omega) = f[i].extractLsb' 0 8 := frameBytes_get f ⟨i, hi⟩ 3 (by decide)
  rw [payloadFrame, Vector.getElem_ofFn]
  simp only [h0, h1, h2, h3]
  exact joined f[i]

/-- Word `i` of a frame made of a head and words (section 1.7). -/
theorem Frame.make_word (head : Word) (words : List Word) (i : Nat) (hi : i < 32) :
    (Frame.make head words).word i = (head :: words).getD i 0 := by
  rw [Frame.word_eq _ ⟨i, hi⟩]
  simp [Frame.make]

/-! ### The bytes of an egress header -/

/-- The fields of byte 0: kind, class, FIRST, LAST and aligned (R11, R12). -/
theorem egressByte0 (kind : BitVec 3) (code : BitVec 2) (first last aligned : Bool) (b : Byte)
    (h : b = kind ++ code ++ BitVec.ofBool first ++ BitVec.ofBool last ++ BitVec.ofBool aligned) :
    b.extractLsb' 5 3 = kind ∧ b.extractLsb' 3 2 = code ∧ b.getLsbD 2 = first ∧ b.getLsbD 1 = last ∧
      b.getLsbD 0 = aligned := by
  subst h
  refine ⟨?_, ?_, ?_, ?_, ?_⟩
  · simp [BitVec.extractLsb'_append_eq_of_le, -Nat.reduceAdd]
  · simp [BitVec.extractLsb'_append_eq_of_le, BitVec.extractLsb'_append_eq_of_add_le, -Nat.reduceAdd]
  all_goals
    simp only [BitVec.getLsbD_append, BitVec.getLsbD_ofBool, Nat.reduceLT, Nat.reduceSub, if_true, if_false,
      -Nat.reduceAdd]
    simp

/-- The fields of byte 1: DID and plane (R11, R12). -/
theorem egressByte1 (d : Did) (plane : BitVec 3) (b : Byte) (h : b = BitVec.ofNat 5 d.val ++ plane) :
    (b.extractLsb' 3 5).toNat = d.val ∧ b.extractLsb' 0 3 = plane := by
  have hd : b.extractLsb' 3 5 = BitVec.ofNat 5 d.val := by
    subst h
    simp [BitVec.extractLsb'_append_eq_of_le, -Nat.reduceAdd]
  refine ⟨by rw [hd, BitVec.toNat_ofNat, Nat.mod_eq_of_lt d.isLt], ?_⟩
  subst h
  simp [BitVec.extractLsb'_append_eq_of_add_le, -Nat.reduceAdd]

/-- The fields of byte 2: poison and count (R11). -/
theorem egressByte2 (poison : Bool) (count : BitVec 7) (b : Byte) (h : b = BitVec.ofBool poison ++ count) :
    b.getLsbD 7 = poison ∧ b.extractLsb' 0 7 = count := by
  subst h
  constructor
  · simp only [BitVec.getLsbD_append, BitVec.getLsbD_ofBool, -Nat.reduceAdd]
    simp
  · simp [BitVec.extractLsb'_append_eq_of_add_le, -Nat.reduceAdd]

/-- The fields of byte 3: multicast, hold, ELEMENT and source (R11, R12). -/
theorem egressByte3 (mc hold element : Bool) (p : PortId) (b : Byte)
    (h : b = BitVec.ofBool mc ++ BitVec.ofBool hold ++ BitVec.ofBool element ++ BitVec.ofNat 5 p.val) :
    b.getLsbD 7 = mc ∧ b.getLsbD 6 = hold ∧ b.getLsbD 5 = element ∧ (b.extractLsb' 0 5).toNat = p.val := by
  have hp : b.extractLsb' 0 5 = BitVec.ofNat 5 p.val := by
    subst h
    simp [BitVec.extractLsb'_append_eq_of_add_le, -Nat.reduceAdd]
  have bits : b.getLsbD 7 = mc ∧ b.getLsbD 6 = hold ∧ b.getLsbD 5 = element := by
    subst h
    refine ⟨?_, ?_, ?_⟩
    all_goals
      simp only [BitVec.getLsbD_append, BitVec.getLsbD_ofBool, Nat.reduceLT, Nat.reduceSub, if_true, if_false,
        -Nat.reduceAdd]
      simp
  obtain ⟨h7, h6, h5⟩ := bits
  exact ⟨h7, h6, h5, by rw [hp, BitVec.toNat_ofNat, Nat.mod_eq_of_lt (by omega)]⟩

/-- The fields of byte 4: credits, four zeros and the reason of a refusal (R12). -/
theorem egressByte4 (credits reason : BitVec 2) (b : Byte) (h : b = credits ++ 0#4 ++ reason) :
    b.extractLsb' 6 2 = credits ∧ b.extractLsb' 2 4 = 0 ∧ b.extractLsb' 0 2 = reason := by
  subst h
  refine ⟨?_, ?_, ?_⟩ <;>
    simp [BitVec.extractLsb'_append_eq_of_le, BitVec.extractLsb'_append_eq_of_add_le, -Nat.reduceAdd]

/-- The fields of a byte that names a class and a DID (R12). -/
theorem slotByte_fields (g : GClass) (d : Did) :
    (slotByte g d).getLsbD 7 = true ∧ (slotByte g d).extractLsb' 5 2 = g.cls.code ∧
      ((slotByte g d).extractLsb' 0 5).toNat = d.val := by
  have hd : (slotByte g d).extractLsb' 0 5 = BitVec.ofNat 5 d.val := by
    unfold slotByte
    simp [BitVec.extractLsb'_append_eq_of_add_le, -Nat.reduceAdd]
  refine ⟨?_, ?_, by rw [hd, BitVec.toNat_ofNat, Nat.mod_eq_of_lt d.isLt]⟩
  · unfold slotByte
    simp only [BitVec.getLsbD_append, Nat.reduceLT, Nat.reduceSub, if_false, -Nat.reduceAdd]
    simp
  · unfold slotByte
    simp [BitVec.extractLsb'_append_eq_of_le, BitVec.extractLsb'_append_eq_of_add_le, -Nat.reduceAdd]

/-- The reason and the class and DID byte of the refusal field (R12). -/
def refusalField : Option RefusalEntry → BitVec 2 × Byte
  | none => (0, 0)
  | some e => (e.reason.code, slotByte e.cls e.did)

theorem egressFieldBytes_eq (c : CellFields) (l : LinkFields) :
    egressFieldBytes c l =
      [c.kind ++ c.cls.code ++ BitVec.ofBool c.first ++ BitVec.ofBool c.last ++ BitVec.ofBool l.aligned,
       BitVec.ofNat 5 c.did.val ++ l.plane, BitVec.ofBool c.poison ++ c.count,
       BitVec.ofBool c.mc ++ BitVec.ofBool l.mcHold ++ BitVec.ofBool c.elementOrigin ++ BitVec.ofNat 5 c.source.val,
       l.credits ++ 0#4 ++ (refusalField l.refusal).1, (refusalField l.refusal).2] ++
      grantBytes l.grants[0]? ++ grantBytes l.grants[1]? ++ grantBytes l.grants[2]? ++ [0] := by
  unfold egressFieldBytes
  cases l.refusal <;> rfl

/-- Byte `i` of an egress header, for a byte of its fields (R121). -/
theorem egressCell_field (c : CellFields) (l : LinkFields) (payload : Payload) (i : Nat) (hi : i < 13) :
    (egressCell c l payload).header[i] = (egressFieldBytes c l).getD i 0 := by
  have hlen := egressFieldBytes_length c l
  rw [egressCell_header_get c l payload i (by omega), checkedBytes, List.append_assoc]
  simp [List.getD_eq_getElem?_getD, List.getElem?_append_left, hlen, hi]

/-- Grant slot `i` stands in bytes `6 + 2 i` and `7 + 2 i` (section 1.6.2). -/
theorem egressFieldBytes_grant (c : CellFields) (l : LinkFields) (i : Nat) (hi : i < 3) :
    grantBytes l.grants[i]? =
      [(egressFieldBytes c l).getD (6 + 2 * i) 0, (egressFieldBytes c l).getD (7 + 2 * i) 0] := by
  obtain ⟨x0, y0, h0⟩ := grantBytes_two l.grants[0]?
  obtain ⟨x1, y1, h1⟩ := grantBytes_two l.grants[1]?
  obtain ⟨x2, y2, h2⟩ := grantBytes_two l.grants[2]?
  rw [egressFieldBytes_eq, h0, h1, h2]
  match i, hi with
  | 0, _ => exact h0
  | 1, _ => exact h1
  | 2, _ => exact h2

/-- Byte 12 of an egress header is zero (section 1.6.2). -/
theorem egressFieldBytes_last (c : CellFields) (l : LinkFields) : (egressFieldBytes c l).getD 12 0 = 0 := by
  obtain ⟨x0, y0, h0⟩ := grantBytes_two l.grants[0]?
  obtain ⟨x1, y1, h1⟩ := grantBytes_two l.grants[1]?
  obtain ⟨x2, y2, h2⟩ := grantBytes_two l.grants[2]?
  rw [egressFieldBytes_eq, h0, h1, h2]
  rfl

/-! ### The ingress header -/

theorem Kind.ofCode_eq : ∀ b : BitVec 3,
    Kind.ofCode b = [Kind.fill, .data, .mdata, .ctrl, .mark].getD b.toNat .reserved := by decide

theorem Cls.code_ofCode : ∀ b : BitVec 2, (Cls.ofCode b).code = b := by decide

theorem didOfBits_val (b : Byte) : (didOfBits (b.extractLsb' 0 5)).val = b.toNat % 32 := by
  simp [didOfBits]

/-- A bid slot stands in two bytes: valid, class and DID, and the count (section 1.6.1). -/
theorem BidSlot.read_fields (x y : Byte) :
    (BidSlot.read x y).valid = x.getLsbD 7 ∧ (BidSlot.read x y).cls.code = x.extractLsb' 5 2 ∧
      (BidSlot.read x y).did.val = x.toNat % 32 ∧ (BidSlot.read x y).count = y.toNat :=
  ⟨rfl, Cls.code_ofCode _, didOfBits_val x, rfl⟩

theorem IngressHeader.read_did (h : HeaderBytes) : (IngressHeader.read h).did.val = h[2].toNat % 32 := by
  have : (h[1].extractLsb' 0 1 ++ h[2]).extractLsb' 0 5 = h[2].extractLsb' 0 5 :=
    BitVec.extractLsb'_append_eq_of_add_le (by decide)
  rw [← didOfBits_val, ← this]
  rfl

theorem IngressHeader.read_group (h : HeaderBytes) :
    (IngressHeader.read h).group.val = 256 * (h[1].toNat % 2) + h[2].toNat := by
  change (h[1].extractLsb' 0 1 ++ h[2]).toNat = _
  rw [BitVec.toNat_append, ← Nat.shiftLeft_add_eq_or_of_lt h[2].isLt, Nat.shiftLeft_eq]
  simp [Nat.mul_comm]

/-- Bid slot `i` of an ingress header is read from bytes `5 + 2 i` and `6 + 2 i` (section 1.6.1). -/
theorem IngressHeader.read_bid (h : HeaderBytes) (i : Nat) (b : BidSlot) (x y : Byte)
    (hb : (IngressHeader.read h).bids[i]? = some b) (hx : h.toList[5 + 2 * i]? = some x)
    (hy : h.toList[6 + 2 * i]? = some y) : b = .read x y := by
  match i with
  | 0 | 1 | 2 | 3 =>
    simp at hx hy
    subst hx hy
    exact (Option.some.inj hb).symm
  | _ + 4 => cases hb

/-! ### Responses -/

/-- The status values, and which of them accept (R17, R160). -/
theorem Status.code_value : ∀ e ∈ [(Status.done, 0), (.clamped, 1), (.busy, 2), (.denied, 3), (.badCommand, 4),
    (.badValue, 5), (.inUse, 6), (.lockout, 7)], e.1.code.toNat = e.2 ∧ e.1.accepted = decide (e.2 ≤ 1) := by decide

/-- The head of a response: the code and tag of the command, the status, and the count of its words (R17). -/
theorem responseHead_fields (code tag status count : Byte) (w : Word) (h : w = code ++ tag ++ status ++ count) :
    w.extractLsb' 24 8 = code ∧ w.extractLsb' 16 8 = tag ∧ w.extractLsb' 8 8 = status ∧ w.extractLsb' 0 8 = count := by
  subst h
  refine ⟨?_, ?_, ?_, ?_⟩ <;>
    simp [BitVec.extractLsb'_append_eq_of_le, BitVec.extractLsb'_append_eq_of_add_le, -Nat.reduceAdd]

/-! ### Assembly -/

/-- The header check is that of R2, by its register: the steps given are those of `crc8Bit`. -/
theorem headerCheck_steps (l : List Byte) (b : Byte) (r : Nat → BitVec 8) (h0 : r 0 = ~~~headerCheck l ^^^ b)
    (hr : ∀ i, i < 8 → r (i + 1) = if (r i).getLsbD 7 then r i <<< 1 ^^^ 0x07 else r i <<< 1) :
    headerCheck (l ++ [b]) = ~~~r 8 := by
  rw [headerCheck_concat, ← h0, ← repeat_of_steps crc8Bit r 8 fun i hi => ?_]
  rw [hr i hi, crc8Bit, BitVec.msb_eq_getLsbD_last]
  rfl

/-- The payload check is that of R3, by its register: the steps given are those of `crc16Bit`. -/
theorem payloadCheck_steps (l : List Byte) (b : Byte) (r : Nat → BitVec 16)
    (h0 : r 0 = payloadCheck l ^^^ (b ++ (0 : Byte)))
    (hr : ∀ i, i < 8 → r (i + 1) = if (r i).getLsbD 15 then r i <<< 1 ^^^ 0x1021 else r i <<< 1) :
    payloadCheck (l ++ [b]) = r 8 := by
  rw [payloadCheck_concat, ← h0, ← repeat_of_steps crc16Bit r 8 fun i hi => ?_]
  rw [hr i hi, crc16Bit, BitVec.msb_eq_getLsbD_last]
  rfl

/-- The fields of an ingress header stand where section 1.6.1 puts them (R7 to R10). -/
theorem IngressHeader.read_fields (h : HeaderBytes) (r : IngressHeader) (hr : IngressHeader.read h = r) :
    r.kind = [Kind.fill, .data, .mdata, .ctrl, .mark].getD (h[0].extractLsb' 5 3).toNat .reserved ∧
    r.cls.code = h[0].extractLsb' 3 2 ∧ r.first = h[0].getLsbD 2 ∧ r.last = h[0].getLsbD 1 ∧
    r.aligned = h[0].getLsbD 0 ∧ (∀ c : Cls, r.holds.get c = h[1].getLsbD (4 + c.code.toNat)) ∧
    r.element = h[1].getLsbD 3 ∧ r.did.val = h[2].toNat % 32 ∧
    r.group.val = 256 * (h[1].toNat % 2) + h[2].toNat ∧ r.count.toNat = h[3].toNat % 128 ∧
    r.bids.length = 4 ∧
    ∀ (i : Nat) (b : BidSlot) (x y : Byte), r.bids[i]? = some b →
      h.toList[5 + 2 * i]? = some x → h.toList[6 + 2 * i]? = some y →
      b.valid = x.getLsbD 7 ∧ b.cls.code = x.extractLsb' 5 2 ∧ b.did.val = x.toNat % 32 ∧
      b.count = y.toNat := by
  subst hr
  refine ⟨Kind.ofCode_eq _, Cls.code_ofCode _, rfl, rfl, rfl, fun c => by cases c <;> rfl, rfl, read_did h,
    read_group h, BitVec.extractLsb'_toNat _ _ _, rfl, fun i b x y hb hx hy => ?_⟩
  rw [read_bid h i b x y hb hx hy]
  exact BidSlot.read_fields x y

/-- A grant slot of an egress header: two zero bytes where it is empty, and otherwise its class, DID and quota
(R12). -/
theorem egressCell_grant (c : CellFields) (l : LinkFields) (payload : Payload) (i : Nat) (x y : Byte) (hi : i < 3)
    (hx : (egressCell c l payload).header.toList[6 + 2 * i]? = some x)
    (hy : (egressCell c l payload).header.toList[7 + 2 * i]? = some y) :
    (l.grants[i]? = none → x = 0 ∧ y = 0) ∧
    ∀ e : GrantEntry, l.grants[i]? = some e →
      x.getLsbD 7 = true ∧ x.extractLsb' 5 2 = e.cls.cls.code ∧ (x.extractLsb' 0 5).toNat = e.did.val ∧
      y.toNat = e.quota % 256 := by
  have byte (k : Nat) (hk : k < 13) (z : Byte) (hz : (egressCell c l payload).header.toList[k]? = some z) :
      (egressFieldBytes c l).getD k 0 = z := by
    rw [← egressCell_field c l payload k hk]
    rw [Vector.getElem?_toList, Vector.getElem?_eq_getElem (by omega)] at hz
    exact Option.some.inj hz
  have both := egressFieldBytes_grant c l i hi
  rw [byte _ (by omega) x hx, byte _ (by omega) y hy] at both
  refine ⟨fun hn => ?_, fun e he => ?_⟩
  · rw [hn] at both
    simp only [grantBytes, List.cons.injEq] at both
    exact ⟨both.1.symm, both.2.1.symm⟩
  · rw [he] at both
    simp only [grantBytes, List.cons.injEq] at both
    obtain ⟨rfl, rfl, -⟩ := both
    obtain ⟨hv, hc, hd⟩ := slotByte_fields e.cls e.did
    exact ⟨hv, hc, hd, BitVec.toNat_ofNat _ _⟩

/-- A response: code and tag echoed, its status, and its words where it accepts (R17). -/
theorem responseFrame_words (f r : Frame) (st : Status) (value : Nat) (results : List Word)
    (hr : responseFrame f st results = r)
    (hv : (st, value) ∈ [(Status.done, 0), (.clamped, 1), (.busy, 2), (.denied, 3), (.badCommand, 4), (.badValue, 5),
      (.inUse, 6), (.lockout, 7)]) (hlen : results.length ≤ 31) :
    (r.word 0).extractLsb' 24 8 = (f.word 0).extractLsb' 24 8 ∧
    (r.word 0).extractLsb' 16 8 = (f.word 0).extractLsb' 16 8 ∧
    ((r.word 0).extractLsb' 8 8).toNat = value ∧
    ((r.word 0).extractLsb' 0 8).toNat = (if value ≤ 1 then results.length else 0) ∧
    ∀ i, i < 31 → r.word (i + 1) = (if value ≤ 1 then results.getD i 0 else 0) := by
  obtain ⟨hcode, hacc⟩ := Status.code_value _ hv
  have hwords : (if st.accepted then results else []) = if value ≤ 1 then results else [] := by
    rw [hacc]
    simp
  subst hr
  unfold responseFrame
  simp only [hwords]
  obtain ⟨h24, h16, h8, h0⟩ := responseHead_fields _ _ _ _ _
    (Frame.make_word (f.code ++ f.tag ++ st.code ++ BitVec.ofNat 8 (if value ≤ 1 then results else []).length)
      (if value ≤ 1 then results else []) 0 (by decide))
  refine ⟨h24.trans ?_, h16.trans ?_, (congrArg BitVec.toNat h8).trans hcode, (congrArg BitVec.toNat h0).trans ?_,
    fun i hi => ?_⟩
  · rw [f.word_zero, Frame.code]
  · rw [f.word_zero, Frame.tag]
  · split_ifs
    · exact Nat.mod_eq_of_lt (by omega)
    · rfl
  · rw [Frame.make_word _ _ _ (by omega), List.getD_cons_succ]
    split_ifs <;> rfl

/-- The fields of an egress header stand where section 1.6.2 puts them (R11, R12). -/
theorem egressCell_fields (c : CellFields) (l : LinkFields) (payload : Payload) (h : HeaderBytes)
    (hh : (egressCell c l payload).header = h) :
    h[0].extractLsb' 5 3 = c.kind ∧ h[0].extractLsb' 3 2 = c.cls.code ∧ h[0].getLsbD 2 = c.first ∧
    h[0].getLsbD 1 = c.last ∧ h[0].getLsbD 0 = l.aligned ∧
    (h[1].extractLsb' 3 5).toNat = c.did.val ∧ h[1].extractLsb' 0 3 = l.plane ∧
    h[2].getLsbD 7 = c.poison ∧ h[2].extractLsb' 0 7 = c.count ∧
    h[3].getLsbD 7 = c.mc ∧ h[3].getLsbD 6 = l.mcHold ∧ h[3].getLsbD 5 = c.elementOrigin ∧
    (h[3].extractLsb' 0 5).toNat = c.source.val ∧
    h[4].extractLsb' 6 2 = l.credits ∧ h[4].extractLsb' 2 4 = 0 ∧
    (l.refusal = none → h[4].extractLsb' 0 2 = 0 ∧ h[5] = 0) ∧
    (∀ (e : RefusalEntry) (why : Nat), l.refusal = some e →
      (e.reason, why) ∈ [(Reason.unmapped, 1), (.destDown, 2), (.revoked, 3)] →
      (h[4].extractLsb' 0 2).toNat = why ∧ h[5].getLsbD 7 = true ∧
      h[5].extractLsb' 5 2 = e.cls.cls.code ∧ (h[5].extractLsb' 0 5).toNat = e.did.val) ∧
    (∀ (i : Nat) (x y : Byte), i < 3 → h.toList[6 + 2 * i]? = some x → h.toList[7 + 2 * i]? = some y →
      (l.grants[i]? = none → x = 0 ∧ y = 0) ∧
      ∀ e : GrantEntry, l.grants[i]? = some e →
        x.getLsbD 7 = true ∧ x.extractLsb' 5 2 = e.cls.cls.code ∧ (x.extractLsb' 0 5).toNat = e.did.val ∧
        y.toNat = e.quota % 256) ∧
    h[12] = 0 := by
  subst hh
  have byte (i : Nat) (hi : i < 13) := egressCell_field c l payload i hi
  simp only [egressFieldBytes_eq] at byte
  obtain ⟨k, code, first, last, aligned⟩ := egressByte0 _ _ _ _ _ _ (byte 0 (by decide))
  obtain ⟨did, plane⟩ := egressByte1 _ _ _ (byte 1 (by decide))
  obtain ⟨poison, count⟩ := egressByte2 _ _ _ (byte 2 (by decide))
  obtain ⟨mc, hold, element, source⟩ := egressByte3 _ _ _ _ _ (byte 3 (by decide))
  obtain ⟨credits, zeros, reason⟩ := egressByte4 _ _ _ (byte 4 (by decide))
  have refusal : (egressCell c l payload).header[5] = (refusalField l.refusal).2 := byte 5 (by decide)
  refine ⟨k, code, first, last, aligned, did, plane, poison, count, mc, hold, element, source, credits, zeros,
    fun hn => ?_, fun e why he hw => ?_, egressCell_grant c l payload, ?_⟩
  · rw [reason, refusal, hn]
    exact ⟨rfl, rfl⟩
  · have hcode : ∀ x ∈ [(Reason.unmapped, 1), (.destDown, 2), (.revoked, 3)], x.1.code.toNat = x.2 := by decide
    rw [reason, refusal, he]
    exact ⟨hcode _ hw, slotByte_fields e.cls e.did⟩
  · exact (egressCell_field c l payload 12 (by decide)).trans (egressFieldBytes_last c l)

/-- Settles O14: each clause is one of the layouts above. -/
theorem egressChecksMatch : Obligations.EgressChecksMatch := by
  refine ⟨by decide +kernel, rfl, rfl, headerCheck_steps, payloadCheck_steps, fun _ => rfl, fun _ => rfl,
    fun c l payload => ⟨egressCell_headerPasses c l payload, egressCell_payloadPasses c l payload, rfl⟩, rfl, rfl,
    fun i => by simp [zeroPayload], payloadFrame_frameBytes, fun payload i b hb => ?_, IngressHeader.read_fields,
    egressCell_fields, responseFrame_words⟩
  have byte (k : Nat) (hk : k < 4) : b (4 * i + k) = payload[4 * i.val + k]'(by omega) :=
    hb ⟨4 * i.val + k, by omega⟩
  rw [Frame.word_eq, payloadFrame, byte 1 (by decide), byte 2 (by decide), byte 3 (by decide),
      show b (4 * i) = payload[4 * i.val]'(by omega) from byte 0 (by decide)]
  simp

end Sys2Proof.Machine
end

section
/-! PROOFS. What traffic leaves: the relation `Calm`, which every share of an event but those of the links and of the
commands keeps, with one lemma for each operation. -/

namespace Sys2Proof.Machine

/-! ### The relation -/

/-- All of a port but what traffic changes: its scheduler, lists, records, trains, credits and counters. -/
def Port.lasting (P : Port) : Port :=
  { P with round := .reset, elements := [], grants := Vector.replicate 32 (.const none), grantOutbox := [],
           refusalOutbox := [], trains := Vector.replicate 32 (.const .idle), mcTrains := .const .idle, held := 0,
           owed := 0, counters := .zero, sent := .quiet }

/-- What of a destination is neither traffic nor usage: its entry, its floor, and its bids. -/
def DidState.lasting (D : DidState) : DidState :=
  { D with usage := .const ⟨0, 0⟩, queues := .const [], mcRefs := .const 0, counters := .zero }

/-- The settings of the element, its clock and the commands that wait. -/
def State.lasting (s : State) : State :=
  { State.reset with
    classes := s.classes, lifetime := s.lifetime, groups := s.groups, poolSize := s.poolSize, holdOn := s.holdOn,
    holdOff := s.holdOff, status0 := s.status0, status1 := s.status1, plane := s.plane, now := s.now,
    pending := s.pending }

/-- The port has no record, no unsent grant and no refusal (R85). -/
def Port.NoRecord (P : Port) : Prop :=
  (∀ (d : Did) (c : GClass), P.grant d c = none) ∧ P.grantOutbox = [] ∧ P.refusalOutbox = []

/-- What `P` does not hold for its card, `Q` does not either: records, element cells, credits owed (R125, R156). -/
def Port.Clears (P Q : Port) : Prop :=
  (P.NoRecord → Q.NoRecord) ∧ (P.elements = [] → Q.elements = []) ∧ (P.owed = 0 → Q.owed = 0)

/-- No bid queue of the destination holds an entry of port `q` (R64). -/
def DidState.NoBid (D : DidState) (q : PortId) : Prop := ∀ c : GClass, bidOf q (D.bids.get c) = none

/-- Port `q` has no record, no refusal and no bid. -/
def State.NoRecord (s : State) (q : PortId) : Prop := (s.port q).NoRecord ∧ ∀ d : Did, (s.did d).NoBid q

/-- Nothing is held for the card of port `q`. -/
def State.Idle (s : State) (q : PortId) : Prop :=
  s.NoRecord q ∧ (s.port q).elements = [] ∧ (s.port q).owed = 0

/-- A destination keeps its entry unless a drained move of it is cut over (R148, R149). -/
def DidState.Retargets (D E : DidState) : Prop :=
  (E.map = D.map ∧ E.lastMove = D.lastMove ∧ E.moveDone = D.moveDone) ∨
  ∃ port target time code, D.map = .moving port target time code ∧ E.map = .mapped target ∧
    E.lastMove = .drained ∧ E.moveDone = true

/-- A destination keeps its floor, and its entry unless a drained move of it is cut over. -/
def DidState.Follows (D E : DidState) : Prop := E.floor = D.floor ∧ D.Retargets E

/-- What traffic leaves between `s` and `t`: the links, settings and monitors of the ports, the floors and, but for
drained cutovers, the entries of the DIDs, the settings of the element and its clock; CMD_LOST does not fall, and a
port that is not UP comes to hold nothing for its card. -/
structure State.Calm (s t : State) : Prop where
  port : ∀ q, (t.port q).lasting = (s.port q).lasting
  did : ∀ d, (s.did d).Follows (t.did d)
  rest : t.lasting = s.lasting
  lost : s.cmdLost.toNat ≤ t.cmdLost.toNat
  records : ∀ q, (s.port q).link ≠ .up → s.NoRecord q → t.NoRecord q
  elements : ∀ q, (s.port q).link ≠ .up → (s.port q).elements = [] → (t.port q).elements = []
  owed : ∀ q, (s.port q).link ≠ .up → (s.port q).owed = 0 → (t.port q).owed = 0

theorem DidState.Follows.refl (D : DidState) : D.Follows D := ⟨rfl, .inl ⟨rfl, rfl, rfl⟩⟩

theorem DidState.Retargets.trans {D E F : DidState} (h : D.Retargets E) (k : E.Retargets F) : D.Retargets F := by
  rcases h with ⟨hm, hl, hd⟩ | ⟨port, target, time, code, hm, hm', hl, hd⟩ <;>
    rcases k with ⟨km, kl, kd⟩ | ⟨port', target', time', code', km, km', kl, kd⟩
  · exact .inl ⟨km.trans hm, kl.trans hl, kd.trans hd⟩
  · exact .inr ⟨_, _, _, _, hm ▸ km, km', kl, kd⟩
  · exact .inr ⟨_, _, _, _, hm, km.trans hm', kl.trans hl, kd.trans hd⟩
  · rw [hm'] at km; cases km

theorem DidState.Follows.trans {D E F : DidState} (h : D.Follows E) (k : E.Follows F) : D.Follows F :=
  ⟨k.1.trans h.1, h.2.trans k.2⟩

theorem DidState.Follows.ofLasting {D E : DidState} (h : E.lasting = D.lasting) : D.Follows E :=
  ⟨(congrArg DidState.floor h :), .inl ⟨(congrArg DidState.map h :), (congrArg DidState.lastMove h :),
    (congrArg DidState.moveDone h :)⟩⟩

theorem DidState.NoBid.ofLasting {D E : DidState} {q : PortId} (h : E.lasting = D.lasting) (hb : D.NoBid q) :
    E.NoBid q := by
  unfold DidState.NoBid at *
  rwa [show E.bids = D.bids from (congrArg DidState.bids h :)]

namespace State.Calm

variable {s t u : State}

theorem refl (s : State) : s.Calm s :=
  ⟨fun _ => rfl, fun _ => .refl _, rfl, Nat.le_refl _, fun _ _ h => h, fun _ _ h => h, fun _ _ h => h⟩

theorem link (h : s.Calm t) (q : PortId) : (t.port q).link = (s.port q).link :=
  (congrArg Port.link (h.port q) :)

theorem trans (h : s.Calm t) (k : t.Calm u) : s.Calm u where
  port q := (k.port q).trans (h.port q)
  did d := (h.did d).trans (k.did d)
  rest := k.rest.trans h.rest
  lost := h.lost.trans k.lost
  records q hq hn := k.records q (by rwa [h.link q]) (h.records q hq hn)
  elements q hq he := k.elements q (by rwa [h.link q]) (h.elements q hq he)
  owed q hq ho := k.owed q (by rwa [h.link q]) (h.owed q hq ho)

theorem idle (h : s.Calm t) {q : PortId} (hq : (s.port q).link ≠ .up) (hi : s.Idle q) : t.Idle q :=
  ⟨h.records q hq hi.1, h.elements q hq hi.2.1, h.owed q hq hi.2.2⟩

/-- A change of one port, of its traffic alone, that gives a port that is not UP nothing to hold. -/
theorem updPort_of (s : State) (p : PortId) {f : Port → Port} (h : (f (s.port p)).lasting = (s.port p).lasting)
    (hr : (s.port p).link ≠ .up → s.NoRecord p → (f (s.port p)).NoRecord)
    (he : (s.port p).link ≠ .up → (s.port p).elements = [] → (f (s.port p)).elements = [])
    (ho : (s.port p).link ≠ .up → (s.port p).owed = 0 → (f (s.port p)).owed = 0) : s.Calm (s.updPort p f) where
  port q := by
    rw [State.updPort_port]
    split
    · subst q; exact h
    · rfl
  did d := by rw [State.updPort_did]; exact .refl _
  rest := rfl
  lost := Nat.le_refl _
  records q hq hn := by
    refine ⟨?_, fun d => by rw [State.updPort_did]; exact hn.2 d⟩
    rw [State.updPort_port]
    split
    · subst q; exact hr hq hn
    · exact hn.1
  elements q hq := by
    rw [State.updPort_port]
    split
    · subst q; exact he hq
    · exact id
  owed q hq := by
    rw [State.updPort_port]
    split
    · subst q; exact ho hq
    · exact id

theorem updPort (s : State) (p : PortId) {f : Port → Port} (h : (f (s.port p)).lasting = (s.port p).lasting)
    (hi : (s.port p).link ≠ .up → (s.port p).Clears (f (s.port p))) : s.Calm (s.updPort p f) :=
  updPort_of s p h (fun hl hn => (hi hl).1 hn.1) (fun hl => (hi hl).2.1) fun hl => (hi hl).2.2

/-- A change of one destination that neither its entry nor, for a port that is not UP, its bid queues show. -/
theorem updDid (s : State) (d : Did) {f : DidState → DidState} (h : (s.did d).Follows (f (s.did d)))
    (hb : ∀ q, (s.port q).link ≠ .up → (s.did d).NoBid q → (f (s.did d)).NoBid q) : s.Calm (s.updDid d f) where
  port q := by rw [State.updDid_port]
  did e := by
    rw [State.updDid_did]
    split
    · subst e; exact h
    · exact .refl _
  rest := rfl
  lost := Nat.le_refl _
  records q hq hn := by
    refine ⟨by rw [State.updDid_port]; exact hn.1, fun e => ?_⟩
    rw [State.updDid_did]
    split
    · subst e; exact hb q hq (hn.2 _)
    · exact hn.2 e
  elements q _ he := by rwa [State.updDid_port]
  owed q _ ho := by rwa [State.updDid_port]

/-- A change of the traffic of one destination alone. -/
theorem updTraffic (s : State) (d : Did) {f : DidState → DidState} (h : ∀ D, (f D).lasting = D.lasting) :
    s.Calm (s.updDid d f) :=
  updDid s d (.ofLasting (h _)) fun _ _ => DidState.NoBid.ofLasting (h _)

theorem mapPorts (s : State) {f : PortId → Port → Port} (h : ∀ q P, (f q P).lasting = P.lasting)
    (hi : ∀ q (P : Port), P.Clears (f q P)) : s.Calm (s.mapPorts f) where
  port q := by rw [State.mapPorts_port]; exact h _ _
  did d := by rw [State.mapPorts_did]; exact .refl _
  rest := by simp only [State.lasting, State.mapPorts]
  lost := by rw [State.mapPorts_cmdLost]
  records q _ hn :=
    ⟨by rw [State.mapPorts_port]; exact (hi _ _).1 hn.1, fun d => by rw [State.mapPorts_did]; exact hn.2 d⟩
  elements q _ he := by rw [State.mapPorts_port]; exact (hi _ _).2.1 he
  owed q _ ho := by rw [State.mapPorts_port]; exact (hi _ _).2.2 ho

theorem mapDids (s : State) {f : Did → DidState → DidState} (h : ∀ d (D : DidState), D.Follows (f d D))
    (hb : ∀ d (D : DidState) q, D.NoBid q → (f d D).NoBid q) : s.Calm (s.mapDids f) where
  port q := by rw [State.mapDids_port]
  did d := by rw [State.mapDids_did]; exact h _ _
  rest := by simp only [State.lasting, State.mapDids]
  lost := by rw [State.mapDids_cmdLost]
  records q _ hn :=
    ⟨by rw [State.mapDids_port]; exact hn.1, fun d => by rw [State.mapDids_did]; exact hb _ _ _ (hn.2 d)⟩
  elements q _ he := by rwa [State.mapDids_port]
  owed q _ ho := by rwa [State.mapDids_port]

/-- A change of neither ports nor destinations nor settings. -/
theorem ofRest (hp : t.ports = s.ports) (hd : t.dids = s.dids) (hr : t.lasting = s.lasting)
    (hl : s.cmdLost.toNat ≤ t.cmdLost.toNat) : s.Calm t where
  port q := by unfold State.port; rw [hp]
  did d := by unfold State.did; rw [hd]; exact .refl _
  rest := hr
  lost := hl
  records q _ hn := ⟨by unfold State.port; rw [hp]; exact hn.1, fun d => by unfold State.did; rw [hd]; exact hn.2 d⟩
  elements q _ he := by unfold State.port; rw [hp]; exact he
  owed q _ ho := by unfold State.port; rw [hp]; exact ho

/-- Operations one after another. -/
theorem foldl {α : Type} {f : State → α → State} (h : ∀ (t : State) (x : α), t.Calm (f t x)) (s : State)
    (xs : List α) : s.Calm (xs.foldl f s) := by
  induction xs generalizing s with
  | nil => exact refl s
  | cons x xs ih => exact (h s x).trans (ih (f s x))

theorem isUp (h : s.Calm t) (q : PortId) : t.isUp q = s.isUp q := by
  unfold State.isUp
  rw [h.link q]

theorem settings (h : s.Calm t) (q : PortId) : (t.port q).settings = (s.port q).settings :=
  (congrArg Port.settings (h.port q) :)

end State.Calm

theorem State.countPort_calm (s : State) (p : PortId) (f : PortCounters → PortCounters) : s.Calm (s.countPort p f) :=
  .updPort s p rfl fun _ => ⟨id, id, id⟩

theorem State.countDid_calm (s : State) (d : Did) (f : DidCounters → DidCounters) : s.Calm (s.countDid d f) :=
  .updTraffic s d fun _ => rfl

/-! ### Refusals, markers and queues -/

theorem State.refuse_calm (s : State) (p : PortId) (r : RefusalEntry) : s.Calm (s.refuse p r) := by
  obtain ⟨-, e⟩ | ⟨-, -, -, e⟩ | ⟨hu, -, -, e⟩ := s.refuse_cases p r <;> rw [e]
  · exact .refl s
  · exact s.countPort_calm p _
  · exact .updPort s p rfl fun h => absurd ((s.isUp_iff p).1 hu) h

theorem State.setQueue_calm (s : State) (d : Did) (c : Cls) (q : List QEntry) : s.Calm (s.setQueue d c q) :=
  .updTraffic s d fun _ => rfl

theorem State.placeMark_calm (s : State) (k : MarkerKey) : s.Calm (s.placeMark k) :=
  (s.setQueue_calm k.did k.cls _).trans (.ofRest rfl rfl rfl (Nat.le_refl _))

/-- A change of the marker use and the owed-marker list. -/
theorem State.owed_calm (s : State) (use : Nat) (owed : List MarkerKey) :
    s.Calm { s with markerUse := use, owedMarkers := owed } :=
  .ofRest rfl rfl rfl (Nat.le_refl _)

theorem State.makeMark_calm (s : State) (k : MarkerKey) : s.Calm (s.makeMark k) := by
  obtain ⟨-, e⟩ | ⟨-, -, e⟩ | ⟨-, -, e⟩ := s.makeMark_cases k <;> rw [e]
  · exact s.placeMark_calm k
  · exact .refl s
  · exact s.owed_calm _ _

theorem State.makeMarks_calm (s : State) (ks : List MarkerKey) : s.Calm (s.makeMarks ks) :=
  .foldl State.makeMark_calm s ks

theorem State.cancelMark_calm (s : State) (k : MarkerKey) : s.Calm (s.cancelMark k) := s.owed_calm _ _

theorem State.discardMarksOf_calm (s : State) (d : Did) : s.Calm (s.discardMarksOf d) := s.owed_calm _ _

theorem State.serveOwed_calm (s : State) : s.Calm s.serveOwed := by
  obtain ⟨-, e⟩ | ⟨-, -, e⟩ | ⟨-, k, rest, -, e⟩ := s.serveOwed_cases <;> rw [e]
  · exact .refl s
  · exact s.owed_calm _ _
  · exact (s.owed_calm _ rest).trans (State.placeMark_calm _ k)

theorem State.returnMark_calm (s : State) : s.Calm s.returnMark :=
  (s.owed_calm (s.markerUse - 1) s.owedMarkers).trans (State.serveOwed_calm _)

/-! ### Usage, credits and stored multicast cells -/

theorem State.updUsage_calm (s : State) (d : Did) (c : GClass) (f : Usage → Usage) : s.Calm (s.updUsage d c f) := by
  unfold State.updUsage State.setUsage
  exact .updTraffic s d fun _ => rfl

theorem State.holdCredit_calm (s : State) (p : PortId) : s.Calm (s.holdCredit p) := .updPort s p rfl fun _ => ⟨id, id, id⟩

theorem State.refundCredit_calm (s : State) (p : PortId) : s.Calm (s.refundCredit p) := by
  unfold State.refundCredit
  split_ifs with h
  · rw [Bool.and_eq_true, s.isUp_iff] at h
    exact .updPort s p rfl fun hn => absurd h.2 hn
  · exact .refl s

theorem State.releaseCredit_calm (s : State) (p : PortId) : s.Calm (s.releaseCredit p) := by
  refine .updPort s p ?_ fun hn => ?_
  · split_ifs <;> rfl
  · split_ifs
    · exact ⟨id, id, id⟩
    · exact ⟨id, id, id⟩

theorem State.judgeHold_calm (s : State) : s.Calm s.judgeHold := .ofRest rfl rfl rfl (Nat.le_refl _)

theorem State.releaseRef_calm (s : State) (name : Nat) : s.Calm (s.releaseRef name) := by
  unfold State.releaseRef
  split
  · exact .refl s
  · split_ifs <;> exact .ofRest rfl rfl rfl (Nat.le_refl _)

theorem State.updRefs_calm (s : State) (d : Did) (c : GClass) (f : Nat → Nat) : s.Calm (s.updRefs d c f) :=
  .updTraffic s d fun _ => rfl

theorem State.releaseEntry_calm (s : State) (d : Did) (c : Cls) (e : QEntry) : s.Calm (s.releaseEntry d c e) := by
  cases e with
  | cell x =>
    cases c
    case c0 => exact s.releaseCredit_calm x.src
    all_goals exact s.updUsage_calm d _ _
  | mref n =>
    cases c
    case c0 => exact s.releaseRef_calm n
    all_goals exact (s.updRefs_calm d _ _).trans (State.releaseRef_calm _ n)
  | mark src mc => exact s.returnMark_calm

theorem State.flushDid_calm (s : State) (d : Did) (k : Nat → DidCounters → DidCounters) : s.Calm (s.flushDid d k) := by
  have flushed (t : State) (c : Cls) : t.Calm (t.flushQueue d c) :=
    (t.setQueue_calm d c []).trans (.foldl (fun u e => u.releaseEntry_calm d c e) _ _)
  exact (State.Calm.foldl flushed s Cls.all).trans (State.countDid_calm _ d _)

/-! ### Records and bids -/

theorem bidOf_eq_none (q : PortId) (bs : List BidEntry) : bidOf q bs = none ↔ ∀ e ∈ bs, e.src ≠ q := by
  simp [bidOf, List.find?_eq_none]

/-- A bid queue whose sources, but for ports in UP, are all of the old one. -/
theorem State.setBids_calm (s : State) (d : Did) (c : GClass) (bs : List BidEntry)
    (h : ∀ e ∈ bs, (s.port e.src).link ≠ .up → ∃ x ∈ s.bids d c, x.src = e.src) : s.Calm (s.setBids d c bs) := by
  refine .updDid s d ⟨rfl, .inl ⟨rfl, rfl, rfl⟩⟩ fun q hq hb g => ?_
  change bidOf q (((s.did d).bids.set c bs).get g) = none
  by_cases hg : g = c
  · subst hg
    rw [PerG.get_set_self, bidOf_eq_none]
    rintro e he rfl
    obtain ⟨x, hx, hxe⟩ := h e he hq
    exact (bidOf_eq_none _ _).1 (hb g) x hx hxe
  · rw [PerG.get_set_ne _ _ hg]
    exact hb g

theorem State.updUsage_bids (s : State) (d e : Did) (c g : GClass) (f : Usage → Usage) :
    (s.updUsage d c f).bids e g = s.bids e g := by
  unfold State.bids State.updUsage State.setUsage
  rw [State.updDid_did]
  split <;> rfl

theorem State.setGrant_bids (s : State) (p : PortId) (d e : Did) (c g : GClass) (r : Option GrantRec) :
    (s.setGrant p d c r).bids e g = s.bids e g := rfl

theorem State.updOutbox_bids (s : State) (p : PortId) (f : List GrantEntry → List GrantEntry) (e : Did) (g : GClass) :
    (s.updOutbox p f).bids e g = s.bids e g := rfl

theorem bidsWithout_src {p : PortId} {bs : List BidEntry} {e : BidEntry} (h : e ∈ bidsWithout p bs) : e ∈ bs :=
  (List.mem_filter.1 h).1

theorem bidsLowered_src {p : PortId} {bs : List BidEntry} {e : BidEntry} (h : e ∈ bidsLowered p bs) :
    ∃ x ∈ bs, x.src = e.src := by
  obtain ⟨x, hx, he⟩ := List.mem_filterMap.1 h
  refine ⟨x, hx, ?_⟩
  split_ifs at he <;> cases he <;> rfl

theorem bidsWith_src {p : PortId} {n : Nat} {bs : List BidEntry} {e : BidEntry} (h : e ∈ bidsWith p n bs) :
    e.src = p ∨ ∃ x ∈ bs, x.src = e.src := by
  unfold bidsWith at h
  split_ifs at h
  · obtain ⟨x, hx, rfl⟩ := List.mem_map.1 h
    refine .inr ⟨x, hx, ?_⟩
    split_ifs <;> rfl
  · rcases List.mem_append.1 h with h | h
    · exact .inr ⟨e, h, rfl⟩
    · rw [List.mem_singleton.1 h]
      exact .inl rfl

theorem Port.NoRecord.setGrant {P : Port} (h : P.NoRecord) (d : Did) (c : GClass) :
    (P.setGrant d c none).NoRecord := by
  obtain ⟨hg, rest⟩ := h
  refine ⟨fun e g => ?_, rest⟩
  rw [Port.setGrant_grant]
  split_ifs
  · rfl
  · exact hg e g

/-- A record written and the outbox of its port changed, at a port that holds a record or is UP. -/
theorem State.writeRecord_calm (s : State) (p : PortId) (d : Did) (c : GClass) (g : Option GrantRec)
    (f : List GrantEntry → List GrantEntry)
    (h : (s.port p).link ≠ .up → s.NoRecord p → g = none ∧ f [] = []) :
    s.Calm ((s.setGrant p d c g).updOutbox p f) := by
  unfold State.updOutbox State.setGrant
  rw [State.updPort_updPort]
  refine .updPort_of s p rfl (fun hl hn => ?_) (fun _ => id) fun _ => id
  obtain ⟨rfl, hf⟩ := h hl hn
  obtain ⟨hnone, ho, hr⟩ := hn.1.setGrant d c
  exact ⟨hnone, (congrArg f ho).trans hf, hr⟩

theorem State.closeGrant_calm (s : State) (p : PortId) (d : Did) (c : GClass) : s.Calm (s.closeGrant p d c) := by
  obtain ⟨-, e⟩ | ⟨g, -, e⟩ := s.closeGrant_cases p d c <;> rw [e]
  · exact .refl s
  · exact (s.updUsage_calm d c _).trans (State.writeRecord_calm _ p d c none _ fun _ _ => ⟨rfl, rfl⟩)

/-- A port that holds a record does not hold none. -/
theorem State.grant_noRecord {s t : State} {p : PortId} {d : Did} {c : GClass} {g : GrantRec}
    (h : s.grant p d c = some g) (ht : t.ports = s.ports) : ¬ t.NoRecord p := by
  intro hn
  have := hn.1.1 d c
  rw [show t.port p = s.port p by unfold State.port; rw [ht], show (s.port p).grant d c = some g from h] at this
  cases this

theorem State.cutGrant_calm (s : State) (p : PortId) (d : Did) (c : GClass) (n : Nat) :
    s.Calm (s.cutGrant p d c n) := by
  unfold State.cutGrant
  split
  · exact .refl s
  · next g hg =>
    split_ifs
    · refine (s.updUsage_calm d c _).trans (State.writeRecord_calm _ p d c _ _ fun _ hi => ?_)
      exact absurd hi (State.grant_noRecord hg rfl)
    · exact .refl s

theorem State.takeBid_calm (s : State) (p : PortId) (b : BidSlot) (hu : (s.port p).link = .up) :
    s.Calm (s.takeBid p b) := by
  unfold State.takeBid
  cases b.valid
  · exact .refl s
  cases b.cls.granted? with
  | none => exact s.countPort_calm p _
  | some c =>
    by_cases hn : b.count = 0
    · simp only [hn, Bool.not_true, Bool.false_eq_true, if_false, if_true, State.withdrawBid]
      split_ifs
      · exact (s.setBids_calm _ c _ fun e he _ => ⟨e, bidsWithout_src he, rfl⟩).trans (State.closeGrant_calm _ _ _ _)
      · exact .refl s
    · simp only [hn, Bool.not_true, Bool.false_eq_true, if_false]
      cases s.portOf b.did with
      | none => exact s.refuse_calm p _
      | some q =>
        simp only
        split_ifs
        · refine (s.setBids_calm _ c _ fun e he hd => ?_).trans (State.cutGrant_calm _ _ _ _ _)
          obtain rfl | h := bidsWith_src he
          · exact absurd hu hd
          · exact h
        · exact s.refuse_calm p _

theorem State.removeBids_calm (s : State) (d : Did) (c : GClass) (why : Reason) : s.Calm (s.removeBids d c why) :=
  (State.Calm.foldl (fun t e => t.refuse_calm e.src { cls := c, did := d, reason := why }) s (s.bids d c)).trans
    (State.setBids_calm _ d c [] fun _ he => by cases he)

theorem State.revokeClass_calm (s : State) (d : Did) (c : GClass) : s.Calm (s.revokeClass d c) := by
  refine .foldl (fun t p => ?_) s allPorts
  unfold State.revokeOne
  split
  · exact .refl t
  · exact (t.closeGrant_calm p d c).trans (State.refuse_calm _ p _)

theorem State.revoke_calm (s : State) (d : Did) : s.Calm (s.revoke d) :=
  .foldl (fun t c => t.revokeClass_calm d c) s _

theorem State.grantDestDown_calm (s : State) (d : Did) : s.Calm (s.grantDestDown d) :=
  .foldl (fun t c => (t.revokeClass_calm d c).trans (State.removeBids_calm _ d c _)) s _

theorem State.rejudgeBids_calm (s : State) (d : Did) : s.Calm (s.rejudgeBids d) := by
  have removed (why : Reason) : s.Calm (GClass.all.foldl (fun t c => t.removeBids d c why) s) :=
    .foldl (fun t c => t.removeBids_calm d c why) s _
  unfold State.rejudgeBids
  split
  · exact removed _
  · split_ifs
    · exact .refl s
    · exact removed _

theorem State.arbitrate_calm (s : State) (d : Did) (c : GClass) : s.Calm (s.arbitrate d c) := by
  obtain ⟨-, e⟩ | ⟨e, hc, he⟩ := s.arbitrate_cases d c
  · rw [e]; exact .refl s
  · obtain ⟨-, -, hm, -, -⟩ := State.candidate_spec hc
    rw [he]
    refine (s.updUsage_calm d c _).trans ((State.writeRecord_calm _ e.src d c _ _ fun _ hn => ?_).trans
      (State.setBids_calm _ d c _ fun x hx _ => ?_))
    · have hq := hn.2 d c
      change bidOf e.src ((s.updUsage d c _).bids d c) = none at hq
      rw [State.updUsage_bids, bidOf_eq_none] at hq
      exact absurd rfl (hq e hm)
    · rw [State.updOutbox_bids, State.setGrant_bids, State.updUsage_bids]
      rcases List.mem_append.1 hx with h | h
      · exact ⟨x, bidsWithout_src h, rfl⟩
      · rw [List.mem_singleton.1 h]; exact ⟨e, hm, rfl⟩

/-! ### Trains and arrivals -/

theorem State.setTrain_calm (s : State) (p : PortId) (d : Did) (c : Cls) (t : TrainState) :
    s.Calm (s.setTrain p d c t) :=
  .updPort s p rfl fun _ => ⟨id, id, id⟩

theorem State.mapTrainsOf_calm (s : State) (d : Did) (f : TrainState → TrainState) : s.Calm (s.mapTrainsOf d f) :=
  .mapPorts s (fun _ _ => rfl) fun _ _ => ⟨id, id, id⟩

theorem State.mcForget_calm (s : State) (d : Did) : s.Calm (s.mcForget d) :=
  .mapPorts s (fun _ _ => rfl) fun _ _ => ⟨id, id, id⟩

theorem State.refuseCandidate_calm (s : State) (p : PortId) (d : Did) (c : Cls) (first last : Bool) (why : Drop) :
    s.Calm (s.refuseCandidate p d c first last why) := by
  have counted := s.countPort_calm p why
  unfold State.refuseCandidate
  dsimp only
  split_ifs
  · exact counted.trans (State.setTrain_calm _ p d c _)
  · exact counted
  · exact counted.trans ((State.setTrain_calm _ p d c _).trans (State.makeMark_calm _ _))

theorem State.admitCell_calm (s : State) (p : PortId) (d : Did) (c : Cls) (x : StoredCell) :
    s.Calm (s.admitCell p d c x) := by
  have queued := (s.setQueue_calm d c (s.queue d c ++ [.cell x])).trans
    (State.setTrain_calm _ p d c (trainAfterAdmit x.last))
  unfold State.admitCell
  dsimp only
  split_ifs
  · exact queued.trans (State.cancelMark_calm _ _)
  · exact queued

/-- An admitted cell changes its usage and lowers the bid of its source (R55, R56, R80, R81). -/
theorem State.lowerBids_calm (s : State) (p : PortId) (d : Did) (c : GClass) (f : Usage → Usage) :
    s.Calm ((s.updUsage d c f).setBids d c (bidsLowered p (s.bids d c))) := by
  refine (s.updUsage_calm d c f).trans (State.setBids_calm _ d c _ fun e he _ => ?_)
  rw [State.updUsage_bids]
  exact bidsLowered_src he

/-- A cell under an open record lowers the record and the bid (R55, R80). -/
theorem State.admitUnderGrant_calm (s : State) (p : PortId) (d : Did) (c : GClass) (g : GrantRec)
    (h : s.grant p d c = some g) : s.Calm (s.admitUnderGrant p d c g) := by
  have lowered := s.lowerBids_calm p d c Usage.fill
  unfold State.admitUnderGrant
  dsimp only
  split_ifs
  · exact lowered.trans (State.writeRecord_calm _ p d c none _ fun _ _ => ⟨rfl, rfl⟩)
  · exact lowered.trans (State.writeRecord_calm _ p d c _ _ fun _ hn => absurd hn (State.grant_noRecord h rfl))

theorem State.offerData_calm (s : State) (p : PortId) (d : Did) (c : GClass) (x : StoredCell) :
    s.Calm (s.offerData p d c x) := by
  unfold State.offerData
  split
  · next g hg => exact (s.admitUnderGrant_calm p d c g hg).trans (State.admitCell_calm _ p d _ x)
  · split_ifs
    · exact (s.lowerBids_calm p d c Usage.admitLate).trans (State.admitCell_calm _ p d _ x)
    · exact s.refuseCandidate_calm p d _ _ _ _

theorem State.refundIfClass0_calm (s : State) (p : PortId) (c : Cls) : s.Calm (s.refundIfClass0 p c) := by
  cases c
  case c0 => exact s.refundCredit_calm p
  all_goals exact .refl s

theorem State.trainStep_calm (s : State) (p : PortId) (d : Did) (c : Cls) (x : StoredCell) (refused : Bool) :
    s.Calm (s.trainStep p d c x refused) := by
  have dropped (why : Drop) : s.Calm ((s.countPort p why).refundIfClass0 p c) :=
    (s.countPort_calm p why).trans (State.refundIfClass0_calm _ p c)
  unfold State.trainStep
  split
  · split
    · exact (s.refuseCandidate_calm p d c _ _ _).trans (State.refundIfClass0_calm _ p c)
    · split
      · exact s.offerData_calm p d _ x
      · unfold State.offerClass0
        split_ifs
        · exact (s.holdCredit_calm p).trans (State.admitCell_calm _ p d _ x)
        · exact s.refuseCandidate_calm p d _ _ _ _
  · split
    · dsimp only
      split_ifs
      · exact (dropped _).trans ((State.setTrain_calm _ p d c _).trans (State.makeMark_calm _ _))
      · exact dropped _
    · exact dropped _

theorem State.unicastArrival_calm (s : State) (p : PortId) (c : Cls) (h : IngressHeader) (payload : Payload)
    (good : Bool) : s.Calm (s.unicastArrival p c h payload good) := by
  have dropped (f : DidCounters → DidCounters) : s.Calm ((s.countDid h.did f).refundIfClass0 p c) :=
    (s.countDid_calm h.did f).trans (State.refundIfClass0_calm _ p c)
  unfold State.unicastArrival
  dsimp only
  split
  · exact dropped _
  · split_ifs
    · exact s.trainStep_calm p _ c _ _
    · exact dropped _

/-! ### Multicast -/

theorem State.setMcTrain_calm (s : State) (p : PortId) (c : GClass) (t : McTrain) : s.Calm (s.setMcTrain p c t) :=
  .updPort s p rfl fun _ => ⟨id, id, id⟩

theorem State.mcEndWithMarks_calm (s : State) (p : PortId) (c : GClass) : s.Calm (s.mcEndWithMarks p c) :=
  (s.makeMarks_calm _).trans (State.setMcTrain_calm _ p c _)

theorem State.mcRefuse_calm (s : State) (p : PortId) (c : GClass) (first last : Bool) (why : Drop) :
    s.Calm (s.mcRefuse p c first last why) := by
  have counted := s.countPort_calm p why
  unfold State.mcRefuse
  dsimp only
  split_ifs
  · exact counted.trans (State.setMcTrain_calm _ p c _)
  · exact counted.trans (State.setMcTrain_calm _ p c _)
  · exact counted.trans (State.mcEndWithMarks_calm _ p c)

theorem State.mcDrop_calm (s : State) (p : PortId) (c : GClass) (last refused : Bool) :
    s.Calm (s.mcDrop p c last refused) := by
  unfold State.mcDrop
  split
  · dsimp only
    split_ifs
    · exact (s.countPort_calm p _).trans (State.mcEndWithMarks_calm _ p c)
    · exact s.countPort_calm p _
  · exact s.countPort_calm p _

theorem State.storeMulticast_calm (s : State) (c : GClass) (receivers : DidSet) (x : StoredCell) :
    s.Calm (s.storeMulticast c receivers x) := by
  have stored : s.Calm { s with mcCells := s.mcCells ++ [⟨s.mcNext, x, (DidSet.members receivers).length⟩],
                                mcNext := s.mcNext + 1, poolUse := s.poolUse + 1 } :=
    .ofRest rfl rfl rfl (Nat.le_refl _)
  have appended (t : State) (d : Did) : t.Calm (t.appendRef c s.mcNext d) :=
    (t.setQueue_calm d c.cls _).trans (State.updRefs_calm _ d c _)
  exact stored.trans ((State.Calm.foldl appended _ _).trans (State.judgeHold_calm _))

theorem State.countPrunes_calm (s : State) (m : DidSet) : s.Calm (s.countPrunes m) := by
  refine .mapDids s (fun d D => ?_) fun d D q hb => ?_
  · split_ifs
    · exact .ofLasting rfl
    · exact .refl D
  · split_ifs <;> exact hb

theorem State.mcTake_calm (s : State) (p : PortId) (c : GClass) (x : StoredCell) (receivers : DidSet) :
    s.Calm (s.mcTake p c x receivers) := by
  have first (t : State) (stored : DidSet) : t.Calm (t.mcAcceptFirst p c x.last stored) :=
    (State.Calm.foldl State.cancelMark_calm t _).trans
      ((State.makeMarks_calm _ _).trans (State.setMcTrain_calm _ p c _))
  have later (t : State) (gone : DidSet) : t.Calm (t.mcAcceptLater p c x.last gone) :=
    (t.makeMarks_calm _).trans (State.setMcTrain_calm _ p c _)
  have stored (t : State) (left : DidSet) :
      t.Calm (if left = 0 then t.countPort p .incMcNoMember else t.storeMulticast c left x) := by
    split_ifs
    · exact t.countPort_calm p _
    · exact t.storeMulticast_calm c left x
  unfold State.mcTake
  dsimp only
  split
  · exact s.mcRefuse_calm p c _ _ _
  · have taken := (s.countPrunes_calm (s.pruned c receivers)).trans (stored _ (s.unpruned c receivers))
    split
    · exact taken.trans (first _ _)
    · exact taken.trans (later _ _)

theorem State.multicastArrival_calm (s : State) (p : PortId) (c : GClass) (h : IngressHeader) (payload : Payload)
    (good : Bool) : s.Calm (s.multicastArrival p c h payload good) := by
  unfold State.multicastArrival
  dsimp only
  split_ifs
  · exact s.mcRefuse_calm p c _ _ _
  · exact s.mcRefuse_calm p c _ _ _
  · exact s.mcTake_calm p c _ _
  · exact s.mcRefuse_calm p c _ _ _
  · exact s.mcTake_calm p c _ _
  · exact s.mcDrop_calm p c _ _

/-! ### Element cells and the command queue -/

/-- An element cell is placed at a port in UP (R157). -/
theorem State.placeElement_calm (s : State) (p : PortId) (f : Frame) (hu : (s.port p).link = .up) :
    s.Calm (s.placeElement p f) :=
  have placed : s.Calm (s.updPort p fun P => { P with elements := P.elements ++ [f] }) :=
    .updPort s p rfl fun hn => absurd hu hn
  placed.trans (.ofRest rfl rfl rfl (Nat.le_refl _))

theorem State.setUnit_calm (s : State) (u : CmdUnit) : s.Calm { s with cmdUnit := u } :=
  .ofRest rfl rfl rfl (Nat.le_refl _)

theorem State.offerHeld_calm (s : State) : s.Calm s.offerHeld := by
  unfold State.offerHeld
  split
  · exact .refl s
  · next p f _ =>
    by_cases hu : s.isUp p = true
    · rw [hu]
      simp only [Bool.not_true, Bool.false_eq_true, if_false]
      split_ifs
      · exact (s.placeElement_calm p f ((s.isUp_iff p).1 hu)).trans (State.setUnit_calm _ _)
      · exact .refl s
    · rw [Bool.eq_false_iff.2 hu]
      exact s.setUnit_calm _

theorem State.freeElements_calm (s : State) (n : Nat) : s.Calm (s.freeElements n) := by
  have fewer : s.Calm { s with elementUse := s.elementUse - n } := .ofRest rfl rfl rfl (Nat.le_refl _)
  obtain rfl | hn := n.eq_zero_or_pos
  · exact .refl s
  · rw [s.freeElements_pos hn]
    exact fewer.trans (State.offerHeld_calm _)

theorem State.dropElements_calm (s : State) (p : PortId) : s.Calm (s.dropElements p) := by
  have held : s.Calm (s.dropHeld p) := by
    unfold State.dropHeld
    split
    · split_ifs
      · exact s.setUnit_calm _
      · exact .refl s
    · exact .refl s
  have emptied : (s.dropHeld p).Calm ((s.dropHeld p).updPort p fun P => { P with elements := [] }) :=
    .updPort _ p rfl fun _ => ⟨id, fun _ => rfl, id⟩
  exact held.trans (emptied.trans (State.freeElements_calm _ _))

theorem State.offerResponse_calm (s : State) (p : PortId) (f : Frame) : s.Calm (s.offerResponse p f) := by
  obtain ⟨-, e⟩ | ⟨hu, -, e⟩ | ⟨-, -, e⟩ := s.offerResponse_cases p f <;> rw [e]
  · exact .refl s
  · exact s.placeElement_calm p f ((s.isUp_iff p).1 hu)
  · exact s.setUnit_calm _

theorem State.takeCommand_calm (s : State) (cmd : CmdCell) (rest : List CmdCell) : s.Calm (s.takeCommand cmd rest) :=
  (s.releaseCredit_calm cmd.src).trans (.ofRest rfl rfl rfl (Nat.le_refl _))

theorem countUp_toNat (c : BitVec 32) : c.toNat ≤ (countUp c).toNat := by
  unfold countUp
  split_ifs with h
  · exact Nat.le_refl _
  · have hlt := c.isLt
    have : c.toNat ≠ 2 ^ 32 - 1 := fun e => h (BitVec.eq_of_toNat_eq (by simpa using e))
    rw [BitVec.toNat_add_of_lt (by simp; omega)]
    omega

theorem State.commandArrival_calm (s : State) (p : PortId) (h : IngressHeader) (payload : Payload) (good : Bool)
    (hu : (s.port p).link = .up) : s.Calm (s.commandArrival p h payload good) := by
  unfold State.commandArrival
  dsimp only
  split_ifs
  · exact (s.countPort_calm p _).trans (State.refundCredit_calm _ p)
  · exact s.countPort_calm p _
  · refine (s.refundCredit_calm p).trans (State.placeElement_calm _ p _ ?_)
    rw [(s.refundCredit_calm p).link p]
    exact hu
  · exact (s.refundCredit_calm p).trans (.ofRest rfl rfl rfl (countUp_toNat _))
  · exact (s.holdCredit_calm p).trans (.ofRest rfl rfl rfl (Nat.le_refl _))

theorem State.takeCell_calm (s : State) (p : PortId) (h : IngressHeader) (c : RawCell) (hu : (s.port p).link = .up) :
    s.Calm (s.takeCell p h c) := by
  have counted : ∀ t, t = (if h.carriesCell then s.countPort p .incCellsIn else s) → s.Calm t := by
    rintro _ rfl
    split_ifs
    · exact s.countPort_calm p _
    · exact .refl s
  unfold State.takeCell
  dsimp only
  generalize ht : (if h.carriesCell then s.countPort p .incCellsIn else s) = t
  have hc := counted t ht.symm
  cases h.classify with
  | fill => exact hc
  | badKind => exact hc.trans (t.countPort_calm p _)
  | unicast g => exact hc.trans (t.unicastArrival_calm p _ h _ _)
  | class0 => exact hc.trans (t.unicastArrival_calm p _ h _ _)
  | multicast g => exact hc.trans (t.multicastArrival_calm p g h _ _)
  | command => exact hc.trans (t.commandArrival_calm p h _ _ (by rw [hc.link p, hu]))

/-! ### The end of an event -/

theorem State.afterCutover_calm (s : State) (d : Did) : s.Calm (s.afterCutover d) := by
  unfold State.afterCutover
  dsimp only
  split_ifs
  · exact s.rejudgeBids_calm d
  · exact (s.rejudgeBids_calm d).trans ((State.mapTrainsOf_calm _ d _).trans (State.mcForget_calm _ d))

theorem State.setMap_completeMove (s : State) (d : Did) (m : DidMap) (r : MoveResult) :
    (s.setMap d m).completeMove d r = s.updDid d fun D => { D with map := m, lastMove := r, moveDone := true } := by
  simp [State.setMap, State.completeMove, State.updDid]

theorem State.judgeDrain_calm (s : State) (d : Did) : s.Calm (s.judgeDrain d) := by
  obtain ⟨port, target, time, code, hm, -, e⟩ | ⟨-, e⟩ := s.judgeDrain_cases d <;> rw [e]
  · unfold State.cutover
    rw [s.setMap_completeMove]
    exact (State.Calm.updDid s d ⟨rfl, .inr ⟨port, target, time, code, hm, rfl, rfl, rfl⟩⟩ fun _ _ hb => hb).trans
      (State.afterCutover_calm _ d)
  · exact .refl s

theorem State.drainStep_calm (s t : State) : t.Calm (s.drainStep t) := .foldl State.judgeDrain_calm t _

theorem State.offerNotices_calm (s : State) : s.Calm s.offerNotices := by
  refine .foldl (fun t p => ?_) s s.reportPorts
  obtain ⟨hu, -, e⟩ | ⟨-, e⟩ := t.offerNotice_cases p (noticeFrame s.noticeWord s.moveDoneWord) <;> rw [e]
  · exact t.placeElement_calm p _ ((t.isUp_iff p).1 hu)
  · exact .refl t

/-- After an event that changed no watched condition the notice unit does no more than offer notices (R174, R177). -/
theorem noticeStep_calm (s t : State) (h : ∀ q, (t.port q).conditions = (s.port q).conditions) :
    t.Calm (noticeStep s t) := by
  have h1 : (t.mapPorts fun p P => P.judgeNotice (s.port p).conditions) = t := by
    refine t.mapPorts_same _ fun q => ?_
    unfold Port.judgeNotice
    rw [if_pos (h q)]
  unfold noticeStep
  simp only [h1]
  split_ifs
  · exact t.offerNotices_calm
  · exact .refl t

theorem State.Calm.conditions {s t : State} (h : s.Calm t) (q : PortId) :
    (t.port q).conditions = (s.port q).conditions :=
  show (t.port q).lasting.conditions = (s.port q).lasting.conditions by rw [h.port q]

/-- The end of an event that changed no watched condition. -/
theorem eventEnd_still {s t : State} (h : ∀ q, (t.port q).conditions = (s.port q).conditions) :
    t.Calm (eventEnd s t) :=
  have drained := s.drainStep_calm t
  drained.trans (noticeStep_calm s _ fun q => (drained.conditions q).trans (h q))

/-- The end of an event that traffic alone brings. -/
theorem eventEnd_calm {s t : State} (h : s.Calm t) : s.Calm (eventEnd s t) :=
  h.trans (eventEnd_still h.conditions)

theorem State.takeBids_calm (s : State) (p : PortId) (bs : List BidSlot) (hu : (s.port p).link = .up) :
    s.Calm (s.takeBids p bs) := by
  induction bs generalizing s with
  | nil => exact .refl s
  | cons b bs ih =>
    have first := eventEnd_calm (s.takeBid_calm p b hu)
    rw [s.takeBids_cons]
    exact first.trans (ih _ (by rw [first.link p, hu]))

/-! ### The slot -/

theorem State.depart_calm (s : State) (p : PortId) (ch : Choice) : s.Calm (s.depart p ch).2 := by
  unfold State.depart
  cases ch with
  | queue d c =>
    dsimp only
    split
    · exact .refl s
    · exact (s.setQueue_calm d c _).trans ((State.releaseEntry_calm _ d c _).trans (State.countPort_calm _ p _))
  | element =>
    dsimp only
    split
    · exact .refl s
    · next f rest hf =>
      have taken : s.Calm (s.updPort p fun P => { P with elements := rest }) :=
        .updPort s p rfl fun _ => ⟨id, fun he => absurd (hf.symm.trans he) (List.cons_ne_nil f rest), id⟩
      exact taken.trans ((State.freeElements_calm _ 1).trans (State.countPort_calm _ p _))

/-- The deadlines of the grants that leave are written to open records alone (R78). -/
theorem Port.startDeadlines_lasting (time : Nat) (es : List GrantEntry) (P : Port) :
    (es.foldl (Port.startDeadline time) P).lasting = P.lasting := by
  induction es generalizing P with
  | nil => rfl
  | cons e es ih =>
    rw [List.foldl_cons, ih]
    unfold Port.startDeadline
    split <;> rfl

theorem Port.startDeadlines_elements (time : Nat) (es : List GrantEntry) (P : Port) :
    (es.foldl (Port.startDeadline time) P).elements = P.elements := by
  induction es generalizing P with
  | nil => rfl
  | cons e es ih =>
    rw [List.foldl_cons, ih]
    unfold Port.startDeadline
    split <;> rfl

theorem State.leaveHeader_calm (s : State) (p : PortId) : s.Calm (s.leaveHeader p) := by
  refine .updPort s p ?_ fun _ => ⟨fun hn => ?_, fun he => ?_, fun hw => ?_⟩
  · exact (Port.startDeadlines_lasting (s.now + s.lifetime) ((s.port p).grantOutbox.take Config.grantSlots) (s.port p) :)
  · obtain ⟨hg, ho, hr⟩ := hn
    simp only [ho, List.take_nil, List.foldl_nil]
    exact ⟨hg, rfl, by rw [hr]; rfl⟩
  · exact (Port.startDeadlines_elements (s.now + s.lifetime) ((s.port p).grantOutbox.take Config.grantSlots)
      (s.port p)).trans he
  · simp only [hw, Nat.zero_sub]

theorem State.send_calm (s : State) (p : PortId) (x : Sent) : s.Calm (s.send p x) := .updPort s p rfl fun _ => ⟨id, id, id⟩

theorem State.assemble_calm (s : State) (p : PortId) (c : CellFields) (payload : Payload) :
    s.Calm (s.assemble p c payload) :=
  (s.leaveHeader_calm p).trans (State.send_calm _ p _)

theorem State.setRound_calm (s : State) (p : PortId) (r : Round) : s.Calm (s.updPort p fun P => { P with round := r }) :=
  .updPort s p rfl fun _ => ⟨id, id, id⟩

theorem State.upSlot_calm (s : State) (p : PortId) : s.Calm (s.upSlot p) := by
  have sent (t : State) (c : CellFields) (payload : Payload) : t.Calm (eventEnd t (t.assemble p c payload)) :=
    eventEnd_calm (t.assemble_calm p c payload)
  unfold State.upSlot
  dsimp only
  split
  · generalize State.select _ p = x
    obtain ⟨ch, r⟩ := x
    cases ch with
    | none => exact (s.setRound_calm p _).trans ((State.setRound_calm _ p r).trans (sent _ _ _))
    | some ch =>
      exact (s.setRound_calm p _).trans ((State.setRound_calm _ p r).trans
        ((eventEnd_calm (State.depart_calm _ p ch)).trans (sent _ _ _)))
  · exact (s.setRound_calm p _).trans (sent _ _ _)

end Sys2Proof.Machine
end

section
/-! PROOFS. What an event at a link leaves: the relation `Turns`, which holds all but one port to `Calm`, and what that
port then is (R21 to R41, R164). -/

namespace Sys2Proof.Machine

/-! ### The port-down -/

/-- Port `p` with its records closed and its outboxes emptied has no record (R85). -/
theorem State.closeAll_calm (s : State) (p : PortId) (f : Port → Vector (PerG (Option GrantRec)) 32)
    (h : ∀ (P : Port) (d : Did) (c : GClass), PerG.get (f P)[d] c = none) :
    s.Calm (s.updPort p fun P => { P with grants := f P, grantOutbox := [], refusalOutbox := [] }) ∧
      ((s.updPort p fun P => { P with grants := f P, grantOutbox := [], refusalOutbox := [] }).port p).NoRecord := by
  refine ⟨.updPort s p rfl fun _ => ⟨fun _ => ⟨h _, rfl, rfl⟩, id, id⟩, ?_⟩
  rw [State.updPort_port_self]
  exact ⟨h _, rfl, rfl⟩

theorem State.grantSourceDown_calm (s : State) (p : PortId) :
    s.Calm (s.grantSourceDown p) ∧ (s.grantSourceDown p).NoRecord p := by
  have bids (f : Did → GClass → Usage → Usage) : s.Calm (s.mapDids fun d D =>
      { D with bids := D.bids.map fun _ q => bidsWithout p q, usage := D.usage.map (f d) }) := by
    refine .mapDids s (fun _ _ => ⟨rfl, .inl ⟨rfl, rfl, rfl⟩⟩) fun d D q hb c => ?_
    change bidOf q ((D.bids.map fun _ q => bidsWithout p q).get c) = none
    rw [PerG.get_map, bidOf_eq_none]
    exact fun e he => (bidOf_eq_none q _).1 (hb c) e (bidsWithout_src he)
  unfold State.grantSourceDown
  dsimp only
  obtain ⟨calm, none⟩ := State.closeAll_calm (s.mapDids fun d D =>
      { D with bids := D.bids.map fun _ q => bidsWithout p q,
               usage := D.usage.map fun c u => u.unreserve (remainingOf (s.grant p d c)) }) p
    (fun P => tabMap (fun _ _ => PerG.const none) P.grants) fun P d c => by rw [tabMap_get, PerG.get_const]
  refine ⟨(bids _).trans calm, none, fun d c => ?_⟩
  rw [State.updPort_did, State.mapDids_did, PerG.get_map, bidOf_eq_none]
  intro e he
  simpa [bidsWithout] using (List.mem_filter.1 he).2

/-- Every train of port `p` replaced. -/
theorem State.setTrains_calm (s : State) (p : PortId) (f : Port → Vector (PerClass TrainState) 32) :
    s.Calm (s.updPort p fun P => { P with trains := f P }) :=
  .updPort s p rfl fun _ => ⟨id, id, id⟩

theorem State.arrivalSourceDown_calm (s : State) (p : PortId) : s.Calm (s.arrivalSourceDown p) :=
  (s.makeMarks_calm _).trans (State.setTrains_calm _ p _)

theorem State.arrivalDestDown_calm (s : State) (d : Did) : s.Calm (s.arrivalDestDown d) :=
  (s.mapTrainsOf_calm d fun _ => .idle).trans (State.discardMarksOf_calm _ d)

theorem State.dropElements_elements (s : State) (p : PortId) (h : (s.port p).link ≠ .up) :
    ((s.dropElements p).port p).elements = [] := by
  have held : (s.dropHeld p).ports = s.ports := by
    unfold State.dropHeld
    split
    · split_ifs <;> rfl
    · rfl
  refine (State.freeElements_calm ((s.dropHeld p).updPort p fun P => { P with elements := [] }) _).elements p ?_ ?_
  · rw [State.updPort_port_self]
    unfold State.port at h ⊢
    rwa [held]
  · rw [State.updPort_port_self]

theorem State.mcSourceDown_calm (s : State) (p : PortId) : s.Calm (s.mcSourceDown p) :=
  .updPort s p rfl fun _ => ⟨id, id, id⟩

/-- The share of every block in a port-down is traffic, and leaves nothing held for the card of the port (R25, R85,
R125, R156). -/
theorem State.blocksDown_calm (s : State) (p : PortId) (h : (s.port p).link ≠ .up) :
    s.Calm (s.blocksDown p) ∧ (s.blocksDown p).Idle p := by
  obtain ⟨h1, n1⟩ := s.grantSourceDown_calm p
  have h5 (t : State) : t.Calm ((s.didsOf p).foldl (fun u d => u.flushDid d .addFlush)
      ((s.didsOf p).foldl State.arrivalDestDown
        (((s.didsOf p).foldl State.grantDestDown t).arrivalSourceDown p))) :=
    (State.Calm.foldl State.grantDestDown_calm _ _).trans ((State.arrivalSourceDown_calm _ p).trans
      ((State.Calm.foldl State.arrivalDestDown_calm _ _).trans
        (.foldl (fun u d => u.flushDid_calm d .addFlush) _ _)))
  have h7 (t : State) : (t.dropElements p).Calm
      ((s.didsOf p).foldl State.mcForget ((t.dropElements p).mcSourceDown p)) :=
    (State.mcSourceDown_calm _ p).trans (.foldl State.mcForget_calm _ _)
  have h8 (t : State) : t.Calm (t.updPort p fun P => { P with owed := 0 }) :=
    .updPort t p rfl fun _ => ⟨id, id, fun _ => rfl⟩
  have to5 := h1.trans (h5 _)
  have link5 : ∀ u, s.Calm u → (u.port p).link ≠ .up := fun u hu => by rwa [hu.link p]
  have all := to5.trans ((State.dropElements_calm _ p).trans (h7 _))
  refine ⟨all.trans (h8 _), ?_, ?_, ?_⟩
  · exact ((h5 _).trans ((State.dropElements_calm _ p).trans ((h7 _).trans (h8 _)))).records p (link5 _ h1) n1
  · exact ((h7 _).trans (h8 _)).elements p (link5 _ (to5.trans (State.dropElements_calm _ p)))
      (State.dropElements_elements _ p (link5 _ to5))
  · exact congrArg Port.owed (State.updPort_port_self _ p fun P => { P with owed := 0 })

/-! ### The relation -/

/-- What an event at port `p` leaves between `s` and `t`: of every other port and of the rest what traffic leaves, and
`p`, where it is not UP, holds nothing for its card. -/
structure State.Turns (s : State) (p : PortId) (t : State) : Prop where
  port : ∀ q, q ≠ p → (t.port q).lasting = (s.port q).lasting
  did : ∀ d, (s.did d).Follows (t.did d)
  rest : t.lasting = s.lasting
  lost : s.cmdLost.toNat ≤ t.cmdLost.toNat
  others : ∀ q, q ≠ p → (s.port q).link ≠ .up → s.Idle q → t.Idle q
  idle : (t.port p).link ≠ .up → ((s.port p).link ≠ .up → s.Idle p) → t.Idle p

theorem Port.link_ofLasting {P Q : Port} (h : P.lasting = Q.lasting) : P.link = Q.link := (congrArg Port.link h :)

theorem State.Calm.turns {s t : State} (h : s.Calm t) (p : PortId) : s.Turns p t where
  port q _ := h.port q
  did := h.did
  rest := h.rest
  lost := h.lost
  others _ _ hq hi := h.idle hq hi
  idle ht hi := by
    rw [h.link p] at ht
    exact h.idle ht (hi ht)

theorem State.Turns.trans {s t u : State} {p : PortId} (h : s.Turns p t) (k : t.Turns p u) : s.Turns p u where
  port q hq := (k.port q hq).trans (h.port q hq)
  did d := (h.did d).trans (k.did d)
  rest := k.rest.trans h.rest
  lost := h.lost.trans k.lost
  others q hq hl hi := k.others q hq
    (by rwa [Port.link_ofLasting (h.port q hq)]) (h.others q hq hl hi)
  idle hu hi := k.idle hu fun ht => h.idle ht hi

/-- A change of port `p` that takes it to UP, or leaves it out of UP with nothing more to hold. -/
theorem State.updPort_turns (s : State) (p : PortId) {f : Port → Port}
    (h : (f (s.port p)).link ≠ .up → (s.port p).link ≠ .up ∧ (s.port p).Clears (f (s.port p))) :
    s.Turns p (s.updPort p f) where
  port q hq := by rw [s.updPort_port_ne f hq]
  did d := by rw [State.updPort_did]; exact .refl _
  rest := rfl
  lost := Nat.le_refl _
  others q hq _ hi := by
    refine ⟨⟨?_, fun d => by rw [State.updPort_did]; exact hi.1.2 d⟩, ?_⟩ <;> rw [s.updPort_port_ne f hq]
    · exact hi.1.1
    · exact hi.2
  idle ht hi := by
    rw [State.updPort_port_self] at ht
    obtain ⟨hl, hr, he, ho⟩ := h ht
    obtain ⟨⟨hn, hb⟩, hel, how⟩ := hi hl
    refine ⟨⟨?_, fun d => by rw [State.updPort_did]; exact hb d⟩, ?_, ?_⟩ <;> rw [State.updPort_port_self]
    · exact hr hn
    · exact he hel
    · exact ho how

/-! ### What a port becomes -/

/-- The port as an entry to a state other than UP leaves it, the cause of a port-down recorded (R25). -/
def Port.left (entry : Port → Port) (why : DownCause) (P : Port) : Port :=
  { entry P with lastDown := if P.link = .up then why else (entry P).lastDown }

/-- The port after a judgement of its fault causes (R35, R36). -/
def Port.judged (P : Port) : Port :=
  match P.link with
  | .acquiring | .waiting | .up => if P.faultCause then P.left Port.enterFaulted .fault else P
  | .faulted => if P.faultCause then P else P.left Port.enterAcquiring .fault
  | .disabled | .test => P

/-- An entry to a state other than UP changes neither traffic nor settings, and sees no traffic. -/
structure Port.IsEntry (entry : Port → Port) : Prop where
  link : ∀ P : Port, (entry P).link ≠ .up
  clears : ∀ P : Port, P.Clears (entry P)
  lasting : ∀ P : Port, (entry P.lasting).lasting = (entry P).lasting

theorem Port.enterAcquiring_isEntry : Port.IsEntry Port.enterAcquiring :=
  ⟨fun _ => by simp [Port.enterAcquiring], fun _ => ⟨id, id, id⟩, fun _ => rfl⟩

theorem Port.enterFaulted_isEntry : Port.IsEntry Port.enterFaulted :=
  ⟨fun _ => by simp [Port.enterFaulted], fun _ => ⟨id, id, id⟩, fun _ => rfl⟩

theorem Port.enterDisabled_isEntry : Port.IsEntry Port.enterDisabled :=
  ⟨fun _ => by simp [Port.enterDisabled], fun _ => ⟨id, id, id⟩, fun _ => rfl⟩

theorem Port.enterTest_isEntry (t : TestSettings) : Port.IsEntry (Port.enterTest t) :=
  ⟨fun _ => by simp [Port.enterTest], fun _ => ⟨id, id, id⟩, fun _ => rfl⟩

theorem Port.left_lasting {entry : Port → Port} (h : Port.IsEntry entry) (why : DownCause) {P Q : Port}
    (e : P.lasting = Q.lasting) : (P.left entry why).lasting = (Q.left entry why).lasting := by
  have seen (R : Port) : (R.left entry why).lasting =
      { (entry R.lasting).lasting with
        lastDown := if R.lasting.link = .up then why else ((entry R.lasting).lasting).lastDown } := by
    rw [h.lasting R]
    rfl
  rw [seen P, seen Q, e]

theorem Port.judged_lasting {P Q : Port} (e : P.lasting = Q.lasting) : P.judged.lasting = Q.judged.lasting := by
  have hl : P.link = Q.link := (congrArg Port.link e :)
  have hf : P.faultCause = Q.faultCause := (congrArg Port.faultCause e :)
  have faulted := Port.left_lasting Port.enterFaulted_isEntry .fault e
  have acquiring := Port.left_lasting Port.enterAcquiring_isEntry .fault e
  unfold Port.judged
  rw [hl, hf]
  cases Q.link
  case faulted => dsimp only; split_ifs <;> assumption
  case disabled | test => exact e
  all_goals dsimp only; split_ifs <;> assumption

/-! ### Entries and judgements -/

theorem State.leaveFor_turns (s : State) (p : PortId) {entry : Port → Port} (why : DownCause)
    (h : Port.IsEntry entry) : s.Turns p (s.leaveFor p entry why) ∧
      ((s.leaveFor p entry why).port p).lasting = ((s.port p).left entry why).lasting := by
  obtain ⟨hu, e⟩ | ⟨hu, e⟩ := s.leaveFor_cases p entry why <;> rw [e]
  · obtain ⟨calm, idle⟩ := State.blocksDown_calm (s.updPort p fun P => { entry P with lastDown := why }) p
      (by rw [State.updPort_port_self]; exact h.link _)
    refine ⟨?_, ?_⟩
    · refine ⟨fun q hq => ?_, fun d => ?_, calm.rest, calm.lost, fun q hq hl hi => ?_, fun _ _ => idle⟩
      · rw [calm.port q, s.updPort_port_ne _ hq]
      · rw [← s.updPort_did p fun P => { entry P with lastDown := why }]
        exact calm.did d
      · have same := s.updPort_port_ne (fun P => { entry P with lastDown := why }) hq
        refine calm.idle (by rwa [same]) ⟨⟨?_, fun d => ?_⟩, ?_⟩
        · rw [same]; exact hi.1.1
        · rw [State.updPort_did]; exact hi.1.2 d
        · rw [same]; exact hi.2
    · rw [calm.port p, State.updPort_port_self]
      unfold Port.left
      rw [if_pos ((s.isUp_iff p).1 hu)]
  · have hn : (s.port p).link ≠ .up := fun hl => by rw [(s.isUp_iff p).2 hl] at hu; cases hu
    refine ⟨s.updPort_turns p fun _ => ⟨hn, h.clears _⟩, ?_⟩
    rw [State.updPort_port_self]
    unfold Port.left
    rw [if_neg hn]

theorem State.judgeFault_turns (s : State) (p : PortId) : s.Turns p (s.judgeFault p) ∧
    ((s.judgeFault p).port p).lasting = (s.port p).judged.lasting := by
  have faulted := s.leaveFor_turns p .fault Port.enterFaulted_isEntry
  have acquiring := s.leaveFor_turns p .fault Port.enterAcquiring_isEntry
  have stays := (State.Calm.refl s).turns p
  unfold State.judgeFault Port.judged
  dsimp only
  cases (s.port p).link with
  | disabled | test => exact ⟨stays, rfl⟩
  | faulted =>
    cases (s.port p).faultCause
    · exact acquiring
    · exact ⟨stays, rfl⟩
  | acquiring | waiting | up =>
    cases (s.port p).faultCause
    · exact ⟨stays, rfl⟩
    · exact faulted

theorem State.toAcquiring_turns (s : State) (p : PortId) (why : DownCause) : s.Turns p (s.toAcquiring p why) ∧
    ((s.toAcquiring p why).port p).lasting = ((s.port p).left Port.enterAcquiring why).judged.lasting := by
  obtain ⟨left, hl⟩ := s.leaveFor_turns p why Port.enterAcquiring_isEntry
  obtain ⟨judged, hj⟩ := State.judgeFault_turns (s.leaveFor p Port.enterAcquiring why) p
  exact ⟨left.trans judged, hj.trans (Port.judged_lasting hl)⟩

/-! ### The end of an event -/

theorem Port.judgeNotice_lasting {P Q : Port} (c : BitVec 5) (e : P.lasting = Q.lasting) :
    (P.judgeNotice c).lasting = (Q.judgeNotice c).lasting := by
  have seen (R : Port) : (R.judgeNotice c).lasting = R.lasting.judgeNotice c := by
    unfold Port.judgeNotice
    by_cases h : R.conditions = c
    · rw [if_pos h, if_pos (show R.lasting.conditions = c from h)]
    · rw [if_neg h, if_neg (show ¬ R.lasting.conditions = c from h)]
      rfl
  rw [seen P, seen Q, e]

theorem Port.judgeNotice_clears (P : Port) (c : BitVec 5) : (P.judgeNotice c).link = P.link ∧ P.Clears (P.judgeNotice c) := by
  unfold Port.judgeNotice
  split_ifs <;> exact ⟨rfl, id, id, id⟩

/-- The judgement of the match states gives no port anything to hold. -/
theorem State.judged_idle (t s : State) {q : PortId} (hi : t.Idle q) :
    (t.mapPorts fun q P => P.judgeNotice (s.port q).conditions).Idle q := by
  obtain ⟨hr, he, ho⟩ := (Port.judgeNotice_clears (t.port q) (s.port q).conditions).2
  refine ⟨⟨?_, fun d => by rw [State.mapPorts_did]; exact hi.1.2 d⟩, ?_, ?_⟩ <;> rw [State.mapPorts_port]
  · exact hr hi.1.1
  · exact he hi.2.1
  · exact ho hi.2.2

/-- The notice unit after an event that changed watched conditions of port `p` alone (R174). -/
theorem noticeStep_turns (s t : State) (p : PortId) (h : ∀ q, q ≠ p → (t.port q).conditions = (s.port q).conditions) :
    t.Turns p (noticeStep s t) ∧
      ((noticeStep s t).port p).lasting = ((t.port p).judgeNotice (s.port p).conditions).lasting := by
  have turned : t.Turns p (t.mapPorts fun q P => P.judgeNotice (s.port q).conditions) := by
    refine ⟨fun q hq => ?_, fun d => ?_, by simp [State.lasting], by simp, fun q _ _ hi => t.judged_idle s hi, fun hl hi => ?_⟩
    · rw [State.mapPorts_port]
      unfold Port.judgeNotice
      rw [if_pos (h q hq)]
    · rw [State.mapPorts_did]
      exact .refl _
    · rw [State.mapPorts_port, (Port.judgeNotice_clears _ _).1] at hl
      exact t.judged_idle s (hi hl)
  unfold noticeStep
  dsimp only
  split_ifs
  · have offered := State.offerNotices_calm (t.mapPorts fun q P => P.judgeNotice (s.port q).conditions)
    exact ⟨turned.trans (offered.turns p), by rw [offered.port p, State.mapPorts_port]⟩
  · exact ⟨turned, by rw [State.mapPorts_port]⟩

/-- The end of an event at port `p`. -/
theorem eventEnd_turns {s t : State} {p : PortId} (h : s.Turns p t) : s.Turns p (eventEnd s t) ∧
    ((eventEnd s t).port p).lasting = ((t.port p).judgeNotice (s.port p).conditions).lasting := by
  have drained := s.drainStep_calm t
  have both := h.trans (drained.turns p)
  obtain ⟨turned, hp⟩ := noticeStep_turns s (s.drainStep t) p fun q hq =>
    (congrArg Port.conditions (both.port q hq) :)
  exact ⟨both.trans turned, hp.trans (Port.judgeNotice_lasting _ (drained.port p))⟩

end Sys2Proof.Machine
end

section
/-! PROOFS. The events at a link one by one: each turns its port alone, keeps its settings, and keeps the laws of its
link state and of its match state (R21 to R41, R174). -/

namespace Sys2Proof.Machine

/-! ### The laws of a port -/

/-- The match state is that of the mask and the expected value (R174, R175). -/
def Port.Watched (P : Port) : Prop := P.watchMatch = matchOf P.watchMask P.watchExpect P.conditions

/-- The law of the link state but for the fault causes (R35, R36). -/
def Port.Sound (P : Port) : Prop :=
  match P.link with
  | .disabled => P.LinkLaw
  | .acquiring => P.settings.enable = true ∧ P.elastic = 4 ∧ P.partnerAligned = false ∧ P.holds = .const false ∧
      P.alignCount < 16 ∧ P.failCount = 0
  | .waiting => P.settings.enable = true ∧ P.elastic = 4 ∧ P.partnerAligned = false ∧ P.alignCount = 16 ∧
      P.failCount < 4
  | .up => P.settings.enable = true ∧ P.elastic = 4 ∧ P.partnerAligned = true ∧ P.alignCount = 16 ∧ P.failCount < 4
  | .faulted => P.settings.enable = true ∧ P.elastic = 4 ∧ P.partnerAligned = false ∧ P.holds = .const false ∧
      P.alignCount = 0 ∧ P.failCount = 0
  | .test => P.LinkLaw

/-- A port whose causes are judged keeps its law (R35, R36). -/
theorem Port.Sound.judged {P : Port} (h : P.Sound) : P.judged.LinkLaw := by
  unfold Port.Sound at h
  unfold Port.judged
  cases hl : P.link <;> simp only [hl] at h ⊢
  case disabled | test => exact h
  case faulted =>
    obtain ⟨he, hel, hp, hh, ha, hf⟩ := h
    cases hc : P.faultCause
    · simp only [Bool.false_eq_true, if_false]
      refine ⟨he, hc, ?_, rfl, rfl, (by decide : 0 < 16), rfl⟩
      simpa [Port.left, Port.enterAcquiring, hl] using hel
    · simp only [if_true, Port.LinkLaw, hl]
      exact ⟨he, hc, hel, hp, hh, ha, hf⟩
  case acquiring =>
    obtain ⟨he, hel, hp, hh, ha, hf⟩ := h
    cases hc : P.faultCause
    · simp only [Bool.false_eq_true, if_false, Port.LinkLaw, hl]
      exact ⟨he, hc, hel, hp, hh, ha, hf⟩
    · exact ⟨he, hc, hel, rfl, rfl, rfl, rfl⟩
  case waiting | up =>
    obtain ⟨he, hel, hp, ha, hf⟩ := h
    cases hc : P.faultCause
    · simp only [Bool.false_eq_true, if_false, Port.LinkLaw, hl]
      exact ⟨he, hc, hel, hp, ha, hf⟩
    · exact ⟨he, hc, hel, rfl, rfl, rfl, rfl⟩

theorem Port.LinkLaw.sound {P : Port} (h : P.LinkLaw) : P.Sound := by
  unfold Port.Sound
  cases hl : P.link
  case disabled | test => exact h
  all_goals
    unfold Port.LinkLaw at h
    rw [hl] at h
    exact ⟨h.1, h.2.2⟩

/-- The elastic buffer of a port runs at its centre in every state but DISABLED (R28). -/
theorem Port.LinkLaw.elastic {P : Port} (h : P.LinkLaw) (hl : P.link ≠ .disabled) : P.elastic = 4 := by
  have hs := h.sound
  unfold Port.Sound Port.LinkLaw at hs
  cases hk : P.link <;> simp only [hk] at hs
  case disabled => exact absurd hk hl
  case test => exact hs.1
  all_goals exact hs.2.1

/-- An enabled port that enters ACQUIRING keeps its law once its causes are judged (R21, R35). -/
theorem Port.acquiring_law (P : Port) (why : DownCause) (he : P.settings.enable = true)
    (hel : P.link ≠ .disabled → P.elastic = 4) : (P.left Port.enterAcquiring why).judged.LinkLaw := by
  refine Port.Sound.judged ⟨he, ?_, rfl, rfl, (by decide : 0 < 16), rfl⟩
  change (if P.link = .disabled then 4 else P.elastic) = 4
  split_ifs with h
  · rfl
  · exact hel h

/-! ### What an event at a link keeps -/

/-- `Q` has the settings of `P`, of the port, of its tests and of its notices. -/
structure Port.SameSettings (P Q : Port) : Prop where
  settings : Q.settings = P.settings
  test : Q.test.settings = P.test.settings
  mask : Q.watchMask = P.watchMask
  expect : Q.watchExpect = P.watchExpect

/-- `Q` keeps the laws that `P` keeps. -/
structure Port.KeepsLaws (P Q : Port) : Prop where
  law : P.LinkLaw → Q.LinkLaw
  watched : P.Watched → Q.Watched

/-- An event turns port `p` alone, keeps its settings, and keeps its laws. -/
structure State.LinkEvent (s : State) (p : PortId) (t : State) : Prop where
  turns : s.Turns p t
  same : (s.port p).SameSettings (t.port p)
  laws : (s.port p).KeepsLaws (t.port p)

theorem Port.SameSettings.refl (P : Port) : P.SameSettings P := ⟨rfl, rfl, rfl, rfl⟩

theorem Port.SameSettings.trans {P Q R : Port} (h : P.SameSettings Q) (k : Q.SameSettings R) : P.SameSettings R :=
  ⟨k.settings.trans h.settings, k.test.trans h.test, k.mask.trans h.mask, k.expect.trans h.expect⟩

theorem Port.SameSettings.ofLasting {P Q : Port} (h : Q.lasting = P.lasting) : P.SameSettings Q :=
  ⟨(congrArg Port.settings h :), (congrArg (fun R => R.test.settings) h :), (congrArg Port.watchMask h :),
    (congrArg Port.watchExpect h :)⟩

theorem Port.KeepsLaws.trans {P Q R : Port} (h : P.KeepsLaws Q) (k : Q.KeepsLaws R) : P.KeepsLaws R :=
  ⟨fun x => k.law (h.law x), fun x => k.watched (h.watched x)⟩

theorem Port.KeepsLaws.ofLasting {P Q : Port} (h : Q.lasting = P.lasting) : P.KeepsLaws Q where
  law x := by
    change P.lasting.LinkLaw at x
    change Q.lasting.LinkLaw
    rwa [h]
  watched x := by
    change P.lasting.Watched at x
    change Q.lasting.Watched
    rwa [h]

theorem State.Calm.linkEvent {s t : State} (h : s.Calm t) (p : PortId) : s.LinkEvent p t :=
  ⟨h.turns p, .ofLasting (h.port p), .ofLasting (h.port p)⟩

theorem State.LinkEvent.trans {s t u : State} {p : PortId} (h : s.LinkEvent p t) (k : t.LinkEvent p u) :
    s.LinkEvent p u :=
  ⟨h.turns.trans k.turns, h.same.trans k.same, h.laws.trans k.laws⟩

/-- A port judged by the notice unit at the end of its event keeps the law of its match state (R174). -/
theorem Port.judgeNotice_laws {P Q : Port} (hmask : Q.watchMask = P.watchMask) (hexp : Q.watchExpect = P.watchExpect)
    (hm : Q.watchMatch = P.watchMatch) (hl : P.LinkLaw → Q.LinkLaw) : P.KeepsLaws (Q.judgeNotice P.conditions) where
  law x := by
    have same : (Q.judgeNotice P.conditions).LinkLaw ↔ Q.LinkLaw := by
      unfold Port.judgeNotice
      split_ifs <;> exact Iff.rfl
    exact same.2 (hl x)
  watched x := by
    unfold Port.judgeNotice
    split_ifs with hc
    · unfold Port.Watched at x ⊢
      rw [hm, hmask, hexp, hc]
      exact x
    · rfl

theorem Port.judgeNotice_same (P : Port) (c : BitVec 5) : P.SameSettings (P.judgeNotice c) := by
  unfold Port.judgeNotice
  split_ifs <;> exact ⟨rfl, rfl, rfl, rfl⟩

/-- The end of an event that turned port `p` to `Q`, whatever its settings. -/
theorem eventEnd_laws {s t : State} {p : PortId} {Q : Port} (h : s.Turns p t) (hp : (t.port p).lasting = Q.lasting)
    (hmask : Q.watchMask = (s.port p).watchMask) (hexp : Q.watchExpect = (s.port p).watchExpect)
    (hm : Q.watchMatch = (s.port p).watchMatch) (hl : (s.port p).LinkLaw → Q.LinkLaw) :
    s.Turns p (eventEnd s t) ∧ Q.SameSettings ((eventEnd s t).port p) ∧
      (s.port p).KeepsLaws ((eventEnd s t).port p) := by
  obtain ⟨turned, hend⟩ := eventEnd_turns h
  have hQ := hend.trans (Port.judgeNotice_lasting _ hp)
  exact ⟨turned, (Port.judgeNotice_same Q _).trans (.ofLasting hQ),
    (Port.judgeNotice_laws hmask hexp hm hl).trans (.ofLasting hQ)⟩

/-- The end of an event that turned port `p` to `Q` and kept its settings. -/
theorem eventEnd_linkEvent {s t : State} {p : PortId} {Q : Port} (h : s.Turns p t) (hp : (t.port p).lasting = Q.lasting)
    (hs : (s.port p).SameSettings Q) (hm : Q.watchMatch = (s.port p).watchMatch)
    (hl : (s.port p).LinkLaw → Q.LinkLaw) : s.LinkEvent p (eventEnd s t) := by
  obtain ⟨turned, same, laws⟩ := eventEnd_laws h hp hs.mask hs.expect hm hl
  exact ⟨turned, hs.trans same, laws⟩

/-- An event that changes port `p` alone. -/
theorem State.updPort_event (s : State) (p : PortId) {f : Port → Port}
    (h : (f (s.port p)).link ≠ .up → (s.port p).link ≠ .up ∧ (s.port p).Clears (f (s.port p)))
    (hs : (s.port p).SameSettings (f (s.port p))) (hm : (f (s.port p)).watchMatch = (s.port p).watchMatch)
    (hl : (s.port p).LinkLaw → (f (s.port p)).LinkLaw) : s.LinkEvent p (eventEnd s (s.updPort p f)) :=
  eventEnd_linkEvent (s.updPort_turns p h) (congrArg Port.lasting (State.updPort_port_self s p f)) hs hm hl

/-- A change of port `p` that no watched condition shows needs no end of an event. -/
theorem State.updPort_linkEvent (s : State) (p : PortId) {f : Port → Port}
    (h : (f (s.port p)).link ≠ .up → (s.port p).link ≠ .up ∧ (s.port p).Clears (f (s.port p)))
    (hs : (s.port p).SameSettings (f (s.port p))) (hm : (f (s.port p)).watchMatch = (s.port p).watchMatch)
    (hc : (f (s.port p)).conditions = (s.port p).conditions) (hl : (s.port p).LinkLaw → (f (s.port p)).LinkLaw) :
    s.LinkEvent p (s.updPort p f) := by
  refine ⟨s.updPort_turns p h, ?_, ?_⟩ <;> rw [State.updPort_port_self]
  · exact hs
  · refine ⟨hl, fun x => ?_⟩
    unfold Port.Watched at x ⊢
    rw [hm, hs.mask, hs.expect, hc, x]

theorem Port.judged_same (P : Port) : P.SameSettings P.judged ∧ P.judged.watchMatch = P.watchMatch := by
  unfold Port.judged
  cases P.link with
  | disabled | test => exact ⟨.refl P, rfl⟩
  | faulted | acquiring | waiting | up => cases P.faultCause <;> exact ⟨⟨rfl, rfl, rfl, rfl⟩, rfl⟩

/-- An event that changes port `p` to an enabled port and takes it to ACQUIRING (R21, R35). -/
theorem State.toAcquiring_linkEvent (s : State) (p : PortId) (why : DownCause) {f : Port → Port}
    (h : (f (s.port p)).link ≠ .up → (s.port p).link ≠ .up ∧ (s.port p).Clears (f (s.port p)))
    (hs : (s.port p).SameSettings (f (s.port p))) (hm : (f (s.port p)).watchMatch = (s.port p).watchMatch)
    (he : (s.port p).LinkLaw → (f (s.port p)).settings.enable = true)
    (hel : (s.port p).LinkLaw → (f (s.port p)).link ≠ .disabled → (f (s.port p)).elastic = 4) :
    s.LinkEvent p (eventEnd s ((s.updPort p f).toAcquiring p why)) := by
  obtain ⟨turned, hp⟩ := State.toAcquiring_turns (s.updPort p f) p why
  rw [State.updPort_port_self] at hp
  obtain ⟨same, hw⟩ := Port.judged_same ((f (s.port p)).left Port.enterAcquiring why)
  have entered : (f (s.port p)).SameSettings ((f (s.port p)).left Port.enterAcquiring why) := ⟨rfl, rfl, rfl, rfl⟩
  exact eventEnd_linkEvent ((s.updPort_turns p h).trans turned) hp (hs.trans (entered.trans same)) (hw.trans hm)
    fun x => Port.acquiring_law _ why (he x) (hel x)

/-! ### The arrival of a cell -/

/-- The port as the port-up leaves it (R25, R112, R156). -/
def Port.raised (classes : PerG ClassSettings) (P : Port) : Port :=
  { P with link := .up, failCount := 0, searchBytes := [], searchSkip := 0,
           round := Round.start P.settings.cadence classes, owed := Config.portCredits - P.held }

/-- The byte search keeps its count below 16 until it aligns (R22). -/
theorem searchHeaders_count (fuel : Nat) (bytes : List Byte) (skip count : Nat) (h : count < 16)
    {rest : List Byte} {skip' count' : Nat} (e : searchHeaders fuel bytes skip count = .more rest skip' count') :
    count' < 16 := by
  induction fuel generalizing bytes skip count with
  | zero => cases e; exact h
  | succ fuel ih =>
    unfold searchHeaders at e
    dsimp only at e
    split at e
    · cases e; exact h
    · split at e
      · split at e
        · cases e
        · next hn => exact ih _ _ _ (Nat.lt_of_not_le hn) e
      · exact ih _ _ _ (by decide) e

/-- The port as the header that completes alignment leaves it (R22, R25). -/
def Port.alignedBy (classes : PerG ClassSettings) (h : IngressHeader) (P : Port) : Port :=
  let Q := { Port.takeFlags h P with
    alignCount := Config.alignTarget, failCount := 0, link := .waiting, searchBytes := [], searchSkip := 0 }
  if h.aligned then Q.raised classes else Q

/-- Received bytes in ACQUIRING: the search goes on, or the header that completes alignment is found (R21, R22). -/
theorem State.acquire_cases (s : State) (p : PortId) (c : RawCell) (bytes : List Byte)
    (hb : bytes = (s.port p).searchBytes ++ cellBytesOf c) :
    (∃ rest skip count,
      searchHeaders (bytes.length + 1) bytes (s.port p).searchSkip (s.port p).alignCount = .more rest skip count ∧
      s.acquire p c = s.updPort p fun P => { P with searchBytes := rest, searchSkip := skip, alignCount := count }) ∨
    ∃ header,
      searchHeaders (bytes.length + 1) bytes (s.port p).searchSkip (s.port p).alignCount = .aligned header ∧
      s.acquire p c = s.updPort p (Port.alignedBy s.classes (IngressHeader.read header)) := by
  subst hb
  unfold State.acquire
  dsimp only
  split
  · next rest skip count e => exact .inl ⟨rest, skip, count, e, rfl⟩
  · next header e =>
    refine .inr ⟨header, e, ?_⟩
    unfold Port.alignedBy
    dsimp only
    split_ifs
    · exact State.updPort_updPort _ _ _ _
    · rfl

theorem State.acquire_linkEvent (s : State) (p : PortId) (c : RawCell) (hl : (s.port p).link = .acquiring) :
    s.LinkEvent p (eventEnd s (s.acquire p c)) := by
  have hn : (s.port p).link ≠ .up := by rw [hl]; decide
  obtain ⟨rest, skip, count, e, ha⟩ | ⟨header, -, ha⟩ := s.acquire_cases p c _ rfl <;> rw [ha]
  · refine s.updPort_event p (fun _ => ⟨hn, id, id, id⟩) ⟨rfl, rfl, rfl, rfl⟩ rfl fun x => ?_
    unfold Port.LinkLaw at x ⊢
    rw [hl] at x
    obtain ⟨he, hf, hel, hp, hh, hal, hc⟩ := x
    simp only [hl]
    exact ⟨he, hf, hel, hp, hh, searchHeaders_count _ _ _ _ hal e, hc⟩
  · refine s.updPort_event p (fun h => ⟨hn, ?_⟩) ?_ ?_ fun x => ?_
    all_goals unfold Port.alignedBy at *
    · cases hal : (IngressHeader.read header).aligned <;> simp only [hal] at h ⊢
      · exact ⟨id, id, id⟩
      · exact absurd rfl h
    · cases (IngressHeader.read header).aligned <;> exact ⟨rfl, rfl, rfl, rfl⟩
    · cases (IngressHeader.read header).aligned <;> rfl
    · unfold Port.LinkLaw at x
      rw [hl] at x
      obtain ⟨he, hf, hel, -⟩ := x
      cases hal : (IngressHeader.read header).aligned
      · exact ⟨he, hf, hel, hal, rfl, (by decide : 0 < 4)⟩
      · exact ⟨he, hf, hel, hal, rfl, (by decide : 0 < 4)⟩

theorem Port.LinkLaw.enabled {P : Port} (h : P.LinkLaw) (hl : P.link = .waiting ∨ P.link = .up) :
    P.settings.enable = true ∧ P.elastic = 4 ∧ P.alignCount = 16 ∧ P.failCount < 4 ∧ P.faultCause = false := by
  unfold Port.LinkLaw at h
  rcases hl with hl | hl <;> rw [hl] at h <;> obtain ⟨he, hf, hel, -, ha, hc⟩ := h <;> exact ⟨he, hel, ha, hc, hf⟩

theorem State.headerFails_linkEvent (s : State) (p : PortId) (hl : (s.port p).link = .waiting ∨ (s.port p).link = .up) :
    s.LinkEvent p (eventEnd s (s.headerFails p)) := by
  have out (h : (s.port p).failed.link ≠ .up) : (s.port p).link ≠ .up ∧ (s.port p).Clears (s.port p).failed :=
    ⟨h, id, id, id⟩
  rw [s.headerFails_eq]
  split_ifs with hc
  · exact s.toAcquiring_linkEvent p _ out ⟨rfl, rfl, rfl, rfl⟩ rfl (fun x => (x.enabled hl).1)
      fun x _ => (x.enabled hl).2.1
  · refine eventEnd_linkEvent (s.updPort_turns p out) (congrArg Port.lasting (State.updPort_port_self s p _))
      ⟨rfl, rfl, rfl, rfl⟩ rfl fun x => ?_
    have hfail : (s.port p).failCount + 1 < 4 := by omega
    unfold Port.LinkLaw Port.failed at *
    rcases hl with hl | hl <;> rw [hl] at x <;> simp only [hl] <;> obtain ⟨he, hf, hel, hp, hal, -⟩ := x <;>
      exact ⟨he, hf, hel, hp, hal, hfail⟩

/-- The port with the flags of a valid header taken (R23, R26, R27). -/
def Port.flagged (h : IngressHeader) (P : Port) : Port := { Port.takeFlags h P with failCount := 0 }

/-- A cell that arrives at a port is an event at its link (R5, R19 to R26). -/
theorem State.cellArrives_linkEvent (s : State) (p : PortId) (c : RawCell) : s.LinkEvent p (s.cellArrives p c) := by
  have stays := (State.Calm.refl s).linkEvent p
  unfold State.cellArrives
  dsimp only
  generalize IngressHeader.read c.header = h
  cases hl : (s.port p).link with
  | disabled | faulted | test => exact stays
  | acquiring => exact s.acquire_linkEvent p c hl
  | waiting =>
    have hn : (s.port p).link ≠ .up := by rw [hl]; decide
    cases headerPasses c.header
    · exact s.headerFails_linkEvent p (.inl hl)
    cases ha : h.aligned
    · refine s.updPort_event p (f := Port.flagged h) (fun _ => ⟨hn, id, id, id⟩) ⟨rfl, rfl, rfl, rfl⟩ rfl fun x => ?_
      obtain ⟨he, hel, hal, -, hf⟩ := x.enabled (.inl hl)
      simp only [Port.LinkLaw, Port.flagged, Port.takeFlags, hl]
      exact ⟨he, hf, hel, ha, hal, by decide⟩
    · have raised : (s.updPort p (Port.flagged h)).portUp p =
          s.updPort p fun P => (Port.flagged h P).raised s.classes := State.updPort_updPort _ _ _ _
      change s.LinkEvent p (eventEnd s ((s.updPort p (Port.flagged h)).portUp p))
      rw [raised]
      refine s.updPort_event p (fun h => absurd rfl h) ⟨rfl, rfl, rfl, rfl⟩ rfl fun x => ?_
      obtain ⟨he, hel, hal, -, hf⟩ := x.enabled (.inl hl)
      exact ⟨he, hf, hel, ha, hal, (by decide : 0 < 4)⟩
  | up =>
    cases headerPasses c.header
    · exact s.headerFails_linkEvent p (.inr hl)
    cases ha : h.aligned
    · exact s.toAcquiring_linkEvent p _ (f := Port.flagged h) (fun hn => absurd hl hn) ⟨rfl, rfl, rfl, rfl⟩ rfl
        (fun x => (x.enabled (.inr hl)).1) fun x _ => (x.enabled (.inr hl)).2.1
    · have flags : s.LinkEvent p (s.updPort p (Port.flagged h)) := by
        refine s.updPort_linkEvent p (fun hn => absurd hl hn) ⟨rfl, rfl, rfl, rfl⟩ rfl rfl fun x => ?_
        obtain ⟨he, hel, hal, -, hf⟩ := x.enabled (.inr hl)
        simp only [Port.LinkLaw, Port.flagged, Port.takeFlags, hl]
        exact ⟨he, hf, hel, ha, hal, by decide⟩
      have up : ((s.updPort p (Port.flagged h)).port p).link = .up := by
        rw [State.updPort_port_self]; exact hl
      have bids := State.takeBids_calm _ p h.bids up
      have cell := eventEnd_calm (State.takeCell_calm _ p h c (by rw [bids.link p, up]))
      exact flags.trans ((bids.trans cell).linkEvent p)

/-! ### Slips and monitors -/

/-- The port after a slip in WAITING or UP, counted (R28). -/
def Port.slipped (P : Port) : Port := { P with elastic := Config.elasticCentre, counters := P.counters.incSlip }

/-- The port after a slip in ACQUIRING, its search dropped (R28). -/
def Port.resumed (P : Port) : Port :=
  { P with elastic := Config.elasticCentre, alignCount := 0, searchBytes := [], searchSkip := 0 }

theorem State.slips_acquiring (s : State) {p : PortId} (k : SlipKind) (hl : (s.port p).link = .acquiring) :
    s.slips p k = s.updPort p Port.resumed := by
  unfold State.slips
  rw [hl]
  exact State.updPort_updPort _ _ _ _

/-- A slip in WAITING or UP counts, and without auto-recentre takes the port to ACQUIRING (R28). -/
theorem State.slips_counted (s : State) {p : PortId} (k : SlipKind)
    (hl : (s.port p).link = .waiting ∨ (s.port p).link = .up) :
    s.slips p k = if (s.port p).settings.autoRecentre then s.updPort p Port.slipped
      else (s.updPort p Port.slipped).toAcquiring p .slip := by
  have slipped : (s.recentre p).countPort p .incSlip = s.updPort p Port.slipped := State.updPort_updPort _ _ _ _
  unfold State.slips
  simp only [slipped, State.updPort_port_self]
  rcases hl with hl | hl <;> rw [hl] <;> rfl

/-- A slip by link state (R28, R29). -/
theorem State.slips_cases (s : State) (p : PortId) (k : SlipKind) :
    ((s.port p).link = .disabled ∧ s.slips p k = s) ∨
    (((s.port p).link = .faulted ∨ (s.port p).link = .test) ∧ s.slips p k = s.recentre p) ∨
    ((s.port p).link = .acquiring ∧ s.slips p k = s.updPort p Port.resumed) ∨
    (((s.port p).link = .waiting ∨ (s.port p).link = .up) ∧
      s.slips p k = if (s.port p).settings.autoRecentre then s.updPort p Port.slipped
        else (s.updPort p Port.slipped).toAcquiring p .slip) := by
  cases hl : (s.port p).link with
  | disabled => exact .inl ⟨rfl, by unfold State.slips; rw [hl]⟩
  | faulted => exact .inr (.inl ⟨.inl rfl, by unfold State.slips; rw [hl]⟩)
  | test => exact .inr (.inl ⟨.inr rfl, by unfold State.slips; rw [hl]⟩)
  | acquiring => exact .inr (.inr (.inl ⟨rfl, s.slips_acquiring k hl⟩))
  | waiting => exact .inr (.inr (.inr ⟨.inl rfl, s.slips_counted k (.inl hl)⟩))
  | up => exact .inr (.inr (.inr ⟨.inr rfl, s.slips_counted k (.inr hl)⟩))

theorem State.slips_linkEvent (s : State) (p : PortId) (k : SlipKind) : s.LinkEvent p (eventEnd s (s.slips p k)) := by
  obtain ⟨-, e⟩ | ⟨hl, e⟩ | ⟨hl, e⟩ | ⟨hl, e⟩ := s.slips_cases p k <;> rw [e]
  · rw [eventEnd_self]
    exact (State.Calm.refl s).linkEvent p
  · refine s.updPort_event p (fun h => ⟨h, id, id, id⟩) ⟨rfl, rfl, rfl, rfl⟩ rfl fun x => ?_
    have hel := x.elastic (by rcases hl with hl | hl <;> rw [hl] <;> decide)
    rw [show Config.elasticCentre = (s.port p).elastic from hel.symm]
    exact x
  · refine s.updPort_event p (fun h => ⟨h, id, id, id⟩) ⟨rfl, rfl, rfl, rfl⟩ rfl fun x => ?_
    unfold Port.LinkLaw Port.resumed at *
    simp only [hl] at x ⊢
    obtain ⟨he, hf, -, hp, hh, -, hc⟩ := x
    exact ⟨he, hf, rfl, hp, hh, by decide, hc⟩
  · have out (h : (s.port p).slipped.link ≠ .up) : (s.port p).link ≠ .up ∧ (s.port p).Clears (s.port p).slipped :=
      ⟨h, id, id, id⟩
    split_ifs
    · refine s.updPort_event p out ⟨rfl, rfl, rfl, rfl⟩ rfl fun x => ?_
      have hel := x.elastic (by rcases hl with hl | hl <;> rw [hl] <;> decide)
      unfold Port.slipped
      rw [show Config.elasticCentre = (s.port p).elastic from hel.symm]
      exact x
    · exact s.toAcquiring_linkEvent p _ out ⟨rfl, rfl, rfl, rfl⟩ rfl (fun x => (x.enabled hl).1) fun _ _ => rfl

/-- A change of the monitors of a port that is not DISABLED keeps the law of its link state but for the causes. -/
theorem Port.Sound.monitors {P : Port} (h : P.Sound) (hl : P.link ≠ .disabled) (m : StuckMonitor)
    (q : QualityMonitor) : Port.Sound { P with stuck := m, quality := q } := by
  unfold Port.Sound Port.LinkLaw at *
  cases hk : P.link <;> simp only [hk] at h ⊢
  case disabled => exact absurd hk hl
  all_goals exact h

/-- A change of the monitors whose fault causes are judged in the same event (R30 to R36). -/
theorem State.monitors_linkEvent (s : State) (p : PortId) (hl : (s.port p).link ≠ .disabled) {f : Port → Port}
    (m : Port → StuckMonitor) (q : Port → QualityMonitor) (hf : ∀ P, f P = { P with stuck := m P, quality := q P }) :
    s.LinkEvent p (eventEnd s ((s.updPort p f).judgeFault p)) := by
  obtain ⟨turned, hp⟩ := State.judgeFault_turns (s.updPort p f) p
  rw [State.updPort_port_self, hf] at hp
  have monitored : s.Turns p (s.updPort p f) := s.updPort_turns p fun h => by
    rw [hf] at h ⊢
    exact ⟨h, id, id, id⟩
  have same : (s.port p).SameSettings { s.port p with stuck := m (s.port p), quality := q (s.port p) } :=
    ⟨rfl, rfl, rfl, rfl⟩
  obtain ⟨judged, hw⟩ := Port.judged_same { s.port p with stuck := m (s.port p), quality := q (s.port p) }
  exact eventEnd_linkEvent (monitored.trans turned) hp (same.trans judged) hw fun x => (x.sound.monitors hl _ _).judged

theorem State.qualityCompletes_linkEvent (s : State) (p : PortId) (fig : BitVec 6) :
    s.LinkEvent p (eventEnd s (s.qualityCompletes p fig)) := by
  unfold State.qualityCompletes
  split_ifs with hl
  · rw [eventEnd_self]
    exact (State.Calm.refl s).linkEvent p
  · exact s.monitors_linkEvent p hl (fun P => P.stuck) _ fun _ => rfl

/-- A bit that leaves the assertion as it was leaves the fault causes (R35). -/
theorem Port.stuck_law {P : Port} {m : StuckMonitor} (h : m.asserted = P.stuck.asserted) (hl : P.link ≠ .disabled)
    (x : P.LinkLaw) : Port.LinkLaw { P with stuck := m } := by
  have cause : Port.faultCause { P with stuck := m } = P.faultCause := by simp [Port.faultCause, h]
  unfold Port.LinkLaw at x ⊢
  cases hk : P.link <;> simp only [hk] at x ⊢
  case disabled => exact absurd hk hl
  case test => exact x
  all_goals exact ⟨x.1, cause.trans x.2.1, x.2.2⟩

theorem State.takeStuckBits_linkEvent (s : State) (p : PortId) (bits : List Bool) :
    s.LinkEvent p (s.takeStuckBits p bits) := by
  induction bits generalizing s with
  | nil => exact (State.Calm.refl s).linkEvent p
  | cons b bits ih =>
    unfold State.takeStuckBits
    split_ifs with hl
    · exact (State.Calm.refl s).linkEvent p
    · dsimp only
      rw [State.updPort_port_self]
      refine State.LinkEvent.trans ?_ (ih _)
      split_ifs with ha
      · refine s.updPort_linkEvent p (fun h => ⟨h, id, id, id⟩) ⟨rfl, rfl, rfl, rfl⟩ rfl ?_ (Port.stuck_law ha hl)
        unfold Port.conditions
        dsimp only at ha ⊢
        rw [ha]
      · exact s.monitors_linkEvent p hl _ (fun P => P.quality) fun _ => rfl

end Sys2Proof.Machine
end

section
/-! PROOFS. The events that are neither traffic nor at the receiving side of a link: slots, tests, the entries of the
destination map, and the commands that name ports (R20, R38, R42, R144 to R150, R183 to R187). -/

namespace Sys2Proof.Machine

/-! ### Slots and test bits -/

/-- The generator moves its own register and position alone (R184). -/
theorem PatternUnit.genBits_unit (n : Nat) (u : PatternUnit) :
    ∃ reg pos, (PatternUnit.genBits n u).2 = { u with genReg := reg, genPos := pos } := by
  induction n generalizing u with
  | zero => exact ⟨u.genReg, u.genPos, rfl⟩
  | succ n ih =>
    obtain ⟨reg, pos, e⟩ := ih u.genBit.2
    exact ⟨reg, pos, e⟩

/-- What a port in TEST sends changes its pattern unit, and neither its settings nor its sync state (R20, R184). -/
theorem State.testSlot_eq (s : State) (p : PortId) : ∃ (u : PatternUnit) (x : Sent),
    s.testSlot p = s.updPort p (fun P => { P with test := u, sent := x }) ∧
      u.settings = (s.port p).test.settings ∧ u.sync = (s.port p).test.sync := by
  by_cases hg : (s.port p).test.settings.genPattern = .off
  · refine ⟨(s.port p).test.begin, .quiet, State.updPort_congr s p ?_, rfl, rfl⟩
    rw [if_pos hg]
  · obtain ⟨reg, pos, e⟩ := PatternUnit.genBits_unit Config.slotBits (s.port p).test.begin
    refine ⟨(PatternUnit.genBits Config.slotBits (s.port p).test.begin).2,
      .pattern (PatternUnit.genBits Config.slotBits (s.port p).test.begin).1, State.updPort_congr s p ?_, ?_, ?_⟩
    · rw [if_neg hg]
    · rw [e]; rfl
    · rw [e]; rfl

/-- A change of the pattern unit of a port that keeps its settings and its sync state. -/
theorem State.setUnit_linkEvent (s : State) (p : PortId) (u : PatternUnit) (x : Port → Sent)
    (hs : u.settings = (s.port p).test.settings) (hy : u.sync = (s.port p).test.sync) :
    s.LinkEvent p (s.updPort p fun P => { P with test := u, sent := x P }) := by
  refine s.updPort_linkEvent p (fun h => ⟨h, id, id, id⟩) ⟨rfl, hs, rfl, rfl⟩ rfl ?_ id
  unfold Port.conditions
  dsimp only
  rw [hy]

/-- A slot is no event of the link states (R20, R113). -/
theorem State.slotOpens_linkEvent (s : State) (p : PortId) :
    s.LinkEvent p (s.slotOpens p) ∧ ((s.slotOpens p).port p).link = (s.port p).link := by
  by_cases hl : (s.port p).link = .test
  · obtain ⟨u, x, e, hs, hy⟩ := s.testSlot_eq p
    have opened : s.slotOpens p = s.testSlot p := by unfold State.slotOpens; rw [hl]
    rw [opened, e]
    exact ⟨s.setUnit_linkEvent p u (fun _ => x) hs hy, by rw [State.updPort_port_self]⟩
  · have calm : s.Calm (s.slotOpens p) := by
      unfold State.slotOpens
      cases hk : (s.port p).link with
      | up => exact s.upSlot_calm p
      | disabled | acquiring | waiting | faulted => exact s.send_calm p _
      | test => exact absurd hk hl
    exact ⟨calm.linkEvent p, calm.link p⟩

theorem PatternUnit.takeBit_settings (u : PatternUnit) (b : Bool) : (u.takeBit b).settings = u.settings := by
  have advanced (v : PatternUnit) : v.advance.settings = v.settings := by
    unfold PatternUnit.advance
    dsimp only
    split
    · rfl
    · split_ifs <;> rfl
  have matched (v : PatternUnit) : v.searchMatch.settings = v.settings := by
    unfold PatternUnit.searchMatch
    dsimp only
    split_ifs <;> rfl
  have ended (v : PatternUnit) : v.endBlock.settings = v.settings := by
    unfold PatternUnit.endBlock
    dsimp only
    split_ifs <;> rfl
  have searched (v : PatternUnit) (b : Bool) : (v.searchBit b).settings = v.settings := by
    unfold PatternUnit.searchBit
    dsimp only
    split
    · split_ifs
      · exact matched _
      · rfl
    · split_ifs
      · rfl
      · exact matched _
      · rfl
  unfold PatternUnit.takeBit
  split_ifs
  · rfl
  · dsimp only
    rw [advanced]
    cases u.sync with
    | searching => exact searched u _
    | inSync =>
      change (u.syncBit _).settings = u.settings
      unfold PatternUnit.syncBit
      dsimp only
      split
      · exact ended _
      · rfl

/-- The notice unit after a change of the sync state of port `p` (R174, R186). -/
theorem noticeStep_linkEvent (s : State) (p : PortId) {f : Port → Port}
    (h : (f (s.port p)).link ≠ .up → (s.port p).link ≠ .up ∧ (s.port p).Clears (f (s.port p)))
    (hs : (s.port p).SameSettings (f (s.port p))) (hm : (f (s.port p)).watchMatch = (s.port p).watchMatch)
    (hl : (s.port p).LinkLaw → (f (s.port p)).LinkLaw) : s.LinkEvent p (noticeStep s (s.updPort p f)) := by
  obtain ⟨turned, hend⟩ := noticeStep_turns s (s.updPort p f) p fun q hq => by rw [s.updPort_port_ne f hq]
  rw [State.updPort_port_self] at hend
  have judged := Port.judgeNotice_laws hs.mask hs.expect hm hl
  exact ⟨(s.updPort_turns p h).trans turned, (hs.trans (Port.judgeNotice_same _ _)).trans (.ofLasting hend),
    judged.trans (.ofLasting hend)⟩

/-- Test bits change the pattern unit of a port in TEST, which stays in TEST (R185 to R187). -/
theorem State.takeTestBits_linkEvent (s : State) (p : PortId) (bits : List Bool) :
    s.LinkEvent p (s.takeTestBits p bits) ∧ ((s.takeTestBits p bits).port p).link = (s.port p).link := by
  induction bits generalizing s with
  | nil => exact ⟨(State.Calm.refl s).linkEvent p, rfl⟩
  | cons b bits ih =>
    have taken := PatternUnit.takeBit_settings (s.port p).test b
    unfold State.takeTestBits
    split_ifs with hl
    · dsimp only
      rw [State.updPort_port_self]
      have event : ∀ t, t = (if (PatternUnit.takeBit (s.port p).test b).sync = (s.port p).test.sync
          then s.updPort p fun P => { P with test := P.test.takeBit b }
          else noticeStep s (s.updPort p fun P => { P with test := P.test.takeBit b })) →
          s.LinkEvent p t ∧ (t.port p).link = (s.port p).link := by
        rintro _ rfl
        split_ifs with hy
        · refine ⟨s.updPort_linkEvent p (fun h => ⟨h, id, id, id⟩) ⟨rfl, taken, rfl, rfl⟩ rfl ?_ id, ?_⟩
          · unfold Port.conditions
            dsimp only
            rw [hy]
          · rw [State.updPort_port_self]
        · refine ⟨noticeStep_linkEvent s p (fun h => ⟨h, id, id, id⟩) ⟨rfl, taken, rfl, rfl⟩ rfl id, ?_⟩
          rw [(noticeStep_keeps _ _).portField Port.link (fun _ => rfl), State.updPort_port_self]
      obtain ⟨h1, l1⟩ := event _ rfl
      obtain ⟨h2, l2⟩ := ih _
      exact ⟨h1.trans h2, l2.trans l1⟩
    · exact ⟨(State.Calm.refl s).linkEvent p, rfl⟩

/-! ### Commands that name a port -/

/-- The port after a change of its enable setting from what it was before (R39). -/
def Port.enabledFrom (before : Bool) (P : Port) : Port :=
  if before && !P.settings.enable then P.left Port.enterDisabled .disable
  else if !before && P.settings.enable && decide (P.link = .disabled) then P.left Port.enterAcquiring .disable
  else P

theorem State.applyEnable_turns (s : State) (p : PortId) (before : Bool) : s.Turns p (s.applyEnable p before) ∧
    ((s.applyEnable p before).port p).lasting = ((s.port p).enabledFrom before).judged.lasting := by
  have judge {t : State} {Q : Port} (h : s.Turns p t ∧ (t.port p).lasting = Q.lasting) :
      s.Turns p (t.judgeFault p) ∧ ((t.judgeFault p).port p).lasting = Q.judged.lasting := by
    obtain ⟨judged, hj⟩ := t.judgeFault_turns p
    exact ⟨h.1.trans judged, hj.trans (Port.judged_lasting h.2)⟩
  unfold State.applyEnable Port.enabledFrom
  dsimp only
  split_ifs
  · exact judge (s.leaveFor_turns p _ Port.enterDisabled_isEntry)
  · exact judge (s.leaveFor_turns p _ Port.enterAcquiring_isEntry)
  · exact judge ⟨(State.Calm.refl s).turns p, rfl⟩

/-- The port as an accepted PORT-SET leaves it before its fault causes are judged (R39, R42). -/
def Port.setBy (cmd : CmdCell) (P : Port) : Port :=
  Port.enabledFrom P.settings.enable { P with settings := newSettings cmd P.settings }

/-- An accepted PORT-SET turns its port (R39, R42). -/
theorem State.applyPortSet_turns (s : State) (p : PortId) (cmd : CmdCell) : s.Turns p (s.applyPortSet p cmd) ∧
    ((s.applyPortSet p cmd).port p).lasting = ((s.port p).setBy cmd).judged.lasting := by
  obtain ⟨turned, hp⟩ := State.applyEnable_turns
    (s.updPort p fun P => { P with settings := newSettings cmd P.settings }) p (s.port p).settings.enable
  rw [State.updPort_port_self] at hp
  exact ⟨(s.updPort_turns p fun h => ⟨h, id, id, id⟩).trans turned, hp⟩

theorem Port.setBy_same (cmd : CmdCell) (P : Port) : (P.setBy cmd).settings = newSettings cmd P.settings ∧
    (P.setBy cmd).test.settings = P.test.settings ∧ (P.setBy cmd).watchMask = P.watchMask ∧
    (P.setBy cmd).watchExpect = P.watchExpect ∧ (P.setBy cmd).watchMatch = P.watchMatch := by
  have stopped (u : PatternUnit) (l : LinkState) : (if l = .test then u.stop else u).settings = u.settings := by
    split_ifs <;> rfl
  unfold Port.setBy Port.enabledFrom
  dsimp only
  split_ifs
  · exact ⟨rfl, stopped _ _, rfl, rfl, rfl⟩
  · exact ⟨rfl, rfl, rfl, rfl, rfl⟩
  · exact ⟨rfl, rfl, rfl, rfl, rfl⟩

/-- A change of the settings that leaves enable keeps the law of the link state but for the causes. -/
theorem Port.Sound.settings {P : Port} (h : P.Sound) (o : Settings)
    (he : o.enable = P.settings.enable ∨ P.link = .test) : Port.Sound { P with settings := o } := by
  unfold Port.Sound Port.LinkLaw at *
  cases hk : P.link <;> simp only [hk] at h ⊢ <;> simp only [hk, reduceCtorEq, or_false] at he
  case test => exact h
  all_goals exact ⟨he.trans h.1, h.2⟩

/-- A PORT-SET keeps the law of the link state once the fault causes are judged (R35, R36, R39). -/
theorem Port.setBy_law (cmd : CmdCell) {P : Port} (h : P.LinkLaw) : (P.setBy cmd).judged.LinkLaw := by
  refine Port.Sound.judged ?_
  unfold Port.setBy Port.enabledFrom
  dsimp only
  split_ifs with hd ha
  · simp only [Bool.and_eq_true, Bool.not_eq_true'] at hd
    exact ⟨hd.2, rfl, rfl, rfl, rfl, rfl, rfl, rfl⟩
  · simp only [Bool.and_eq_true, Bool.not_eq_true', decide_eq_true_eq] at ha
    obtain ⟨⟨-, hn⟩, hl⟩ := ha
    exact ⟨hn, if_pos hl, rfl, rfl, (by decide : 0 < 16), rfl⟩
  · refine h.sound.settings _ ?_
    by_cases he : (newSettings cmd P.settings).enable = P.settings.enable
    · exact .inl he
    · refine .inr ?_
      cases hb : P.settings.enable <;> cases hn : (newSettings cmd P.settings).enable <;>
        simp only [hb, hn, Bool.not_true, Bool.not_false, Bool.true_and, Bool.and_true, Bool.false_and,
          not_true_eq_false, decide_eq_true_eq] at he hd ha
      have hs := h.sound
      unfold Port.Sound at hs
      cases hl : P.link <;> simp only [hl] at hs
      case disabled => exact absurd hl ha
      case test => rfl
      all_goals rw [hb] at hs; cases hs.1

/-- A PORT-SET with the end of its event: all but the settings of the port are kept as at any event of its link. -/
theorem State.applyPortSet_event (s : State) (p : PortId) (cmd : CmdCell) (t : State)
    (ht : t = eventEnd s (s.applyPortSet p cmd)) :
    s.Turns p t ∧ (t.port p).test.settings = (s.port p).test.settings ∧ (t.port p).watchMask = (s.port p).watchMask ∧
      (t.port p).watchExpect = (s.port p).watchExpect ∧ (s.port p).KeepsLaws (t.port p) := by
  subst ht
  obtain ⟨turned, hp⟩ := s.applyPortSet_turns p cmd
  obtain ⟨-, htest, hmask, hexp, hmatch⟩ := Port.setBy_same cmd (s.port p)
  obtain ⟨judged, jmatch⟩ := Port.judged_same ((s.port p).setBy cmd)
  obtain ⟨ended, same, laws⟩ := eventEnd_laws turned hp (judged.mask.trans hmask) (judged.expect.trans hexp)
    (jmatch.trans hmatch) (Port.setBy_law cmd)
  have all := judged.trans same
  exact ⟨ended, all.test.trans htest, all.mask.trans hmask, all.expect.trans hexp, laws⟩

/-- A TEST-START with the end of its event: all but the settings of the test are kept (R38, R183). -/
theorem State.startTest_event (s : State) (p : PortId) (u : TestSettings) (t : State)
    (ht : t = eventEnd s (s.leaveFor p (Port.enterTest u) .test)) :
    s.Turns p t ∧ (t.port p).settings = (s.port p).settings ∧ (t.port p).watchMask = (s.port p).watchMask ∧
      (t.port p).watchExpect = (s.port p).watchExpect ∧ (s.port p).KeepsLaws (t.port p) := by
  subst ht
  obtain ⟨turned, hp⟩ := s.leaveFor_turns p .test (Port.enterTest_isEntry u)
  have law (x : (s.port p).LinkLaw) : ((s.port p).left (Port.enterTest u) .test).LinkLaw := by
    refine ⟨?_, rfl, rfl, rfl, rfl⟩
    change (if (s.port p).link = .disabled then 4 else (s.port p).elastic) = 4
    split_ifs with hl
    · rfl
    · exact x.elastic hl
  obtain ⟨ended, same, laws⟩ := eventEnd_laws turned hp rfl rfl rfl law
  exact ⟨ended, same.settings, same.mask, same.expect, laws⟩

/-- A TEST-STOP with the end of its event (R38, R189). -/
theorem State.stopTest_linkEvent (s : State) (p : PortId) : s.LinkEvent p (eventEnd s (s.stopTest p)) := by
  unfold State.stopTest
  split_ifs with hl he
  · exact s.toAcquiring_linkEvent p _ (fun h => ⟨h, id, id, id⟩) ⟨rfl, rfl, rfl, rfl⟩ rfl (fun _ => he)
      fun x _ => x.elastic (by rw [hl]; decide)
  · obtain ⟨turned, hp⟩ := s.leaveFor_turns p .test Port.enterDisabled_isEntry
    refine eventEnd_linkEvent turned hp ⟨rfl, ?_, rfl, rfl⟩ rfl fun _ => ?_
    · change (if (s.port p).link = .test then (s.port p).test.stop else (s.port p).test).settings = _
      rw [if_pos hl]
      rfl
    · exact ⟨Bool.eq_false_iff.2 he, rfl, rfl, rfl, rfl, rfl, rfl, rfl⟩
  · rw [eventEnd_self]
    exact (State.Calm.refl s).linkEvent p

/-! ### The entries of the destination map -/

/-- What an event at the entry of DID `d` leaves between `s` and `t`: what traffic leaves, but for that entry and for
the clock (R144 to R150). -/
structure State.Remaps (s : State) (d : Did) (t : State) : Prop where
  port : ∀ q, (t.port q).lasting = (s.port q).lasting
  floor : ∀ e, (t.did e).floor = (s.did e).floor
  did : ∀ e, e ≠ d → (s.did e).Follows (t.did e)
  rest : t.lasting = { s.lasting with now := t.now }
  lost : s.cmdLost.toNat ≤ t.cmdLost.toNat
  idle : ∀ q, (s.port q).link ≠ .up → s.Idle q → t.Idle q

theorem State.Calm.remaps {s t : State} (h : s.Calm t) (d : Did) : s.Remaps d t where
  port := h.port
  floor e := (h.did e).1
  did e _ := h.did e
  rest := by
    have now : t.now = s.now := (congrArg State.now h.rest :)
    rw [h.rest, now]
    rfl
  lost := h.lost
  idle _ := h.idle

theorem State.Remaps.trans {s t u : State} {d : Did} (h : s.Remaps d t) (k : t.Remaps d u) : s.Remaps d u where
  port q := (k.port q).trans (h.port q)
  floor e := (k.floor e).trans (h.floor e)
  did e he := (h.did e he).trans (k.did e he)
  rest := by rw [k.rest, h.rest]
  lost := h.lost.trans k.lost
  idle q hq hi := k.idle q (by rwa [Port.link_ofLasting (h.port q)]) (h.idle q hq hi)

/-- A change of destination `d` that keeps its floor and its bids. -/
theorem State.updDid_remaps (s : State) (d : Did) {f : DidState → DidState} (hf : ∀ D, (f D).floor = D.floor)
    (hb : ∀ D, (f D).bids = D.bids) : s.Remaps d (s.updDid d f) where
  port q := by rw [State.updDid_port]
  floor e := by
    rw [State.updDid_did]
    split
    · exact hf _
    · rfl
  did e he := by rw [s.updDid_did_ne f he]; exact .refl _
  rest := rfl
  lost := Nat.le_refl _
  idle q _ hi := by
    refine ⟨⟨by rw [State.updDid_port]; exact hi.1.1, fun e => ?_⟩, by rw [State.updDid_port]; exact hi.2⟩
    rw [State.updDid_did]
    split
    · unfold DidState.NoBid
      rw [hb]
      exact hi.1.2 e
    · exact hi.1.2 e

theorem State.setNow_remaps (s : State) (n : Nat) (d : Did) : s.Remaps d { s with now := n } :=
  ⟨fun _ => rfl, fun _ => rfl, fun _ _ => .refl _, rfl, Nat.le_refl _, fun _ _ h => h⟩

theorem State.Remaps.conditions {s t : State} {d : Did} (h : s.Remaps d t) (q : PortId) :
    (t.port q).conditions = (s.port q).conditions :=
  (congrArg Port.conditions (h.port q) :)

theorem State.cutover_remaps (s : State) (d : Did) (target : PortId) (r : MoveResult) :
    s.Remaps d (s.cutover d target r) := by
  unfold State.cutover
  rw [s.setMap_completeMove]
  have written : s.Remaps d (s.updDid d fun D => { D with map := .mapped target, lastMove := r, moveDone := true }) :=
    s.updDid_remaps d (fun _ => rfl) fun _ => rfl
  exact written.trans ((State.afterCutover_calm _ d).remaps d)

theorem State.applyMapSet_remaps (s : State) (d : Did) (m : DidMap) : s.Remaps d (s.applyMapSet d m) :=
  have written : s.Remaps d (s.setMap d m) := s.updDid_remaps d (fun _ => rfl) fun _ => rfl
  written.trans (((State.rejudgeBids_calm _ d).trans
    ((State.mapTrainsOf_calm _ d fun _ => .idle).trans (State.mcForget_calm _ d))).remaps d)

theorem State.startMove_remaps (s : State) (d : Did) (port target : PortId) (code : Nat) :
    s.Remaps d (s.startMove d port target code) := by
  have written (m : DidMap) : s.Remaps d (s.setMap d m) := s.updDid_remaps d (fun _ => rfl) fun _ => rfl
  unfold State.startMove
  split_ifs
  · exact s.updDid_remaps d (fun _ => rfl) fun _ => rfl
  · exact (written _).trans ((State.judgeDrain_calm _ d).remaps d)

theorem State.forceMove_remaps (s : State) (d : Did) : s.Remaps d (s.forceMove d) := by
  unfold State.forceMove
  split
  · next target deadline _ _ =>
    have steps (t : State) : t.Calm ((((t.discardMarksOf d).revoke d).breakTrainsOf d).mcForget d |>.flushDid d .addMoveFlush) :=
      (t.discardMarksOf_calm d).trans ((State.revoke_calm _ d).trans ((State.mapTrainsOf_calm _ d _).trans
        ((State.mcForget_calm _ d).trans (State.flushDid_calm _ d _))))
    exact (s.setNow_remaps (max s.now deadline) d).trans (((steps _).remaps d).trans (State.cutover_remaps _ d target _))
  · exact (State.Calm.refl s).remaps d

/-- The expiry of a record is traffic, but for the clock (R83). -/
theorem State.expire_calm (s : State) (p : PortId) (d : Did) (c : GClass) :
    ∃ n, State.Calm { s with now := n } (s.expire p d c) := by
  unfold State.expire
  split
  · exact ⟨_, (State.closeGrant_calm _ p d c).trans (State.countPort_calm _ p _)⟩
  · exact ⟨s.now, .refl s⟩

end Sys2Proof.Machine
end

section
/-! PROOFS. The laws of the link states and of the match states along every step, and the settings that each command
leaves (R25 to R27, R35, R36, R42, R64, R142, R174, R175). -/

namespace Sys2Proof.Machine

/-! ### The laws of the element -/

theorem matchOf_iff (mask expect conditions : BitVec 5) : matchOf mask expect conditions = true ↔
    ∀ i : Fin 5, mask.getLsbD i = true → conditions.getLsbD i = expect.getLsbD i := by
  unfold matchOf
  rw [decide_eq_true_iff]
  constructor
  · intro h i hm
    have hi := congrArg (fun x => x.getLsbD i.val) h
    rw [BitVec.getLsbD_and, BitVec.getLsbD_xor, hm, Bool.and_true] at hi
    exact bne_eq_false_iff_eq.1 (hi.trans BitVec.getLsbD_zero)
  · intro h
    refine BitVec.eq_of_getLsbD_eq fun i hi => ?_
    have hb := h ⟨i, hi⟩
    cases hm : mask.getLsbD i <;> simp_all

theorem State.noticeLaw_iff (s : State) : s.NoticeLaw ↔ ∀ p, (s.port p).Watched := by
  unfold State.NoticeLaw Port.Watched
  refine forall_congr' fun p => ?_
  rw [← matchOf_iff]
  exact Bool.eq_iff_iff.symm

theorem State.linkLaw_iff (s : State) :
    s.LinkLaw ↔ ∀ p, (s.port p).LinkLaw ∧ ((s.port p).link ≠ .up → s.Idle p) := by
  unfold State.LinkLaw State.isUp
  refine forall_congr' fun p => and_congr Iff.rfl ?_
  rw [decide_eq_false_iff_not]
  refine imp_congr Iff.rfl ⟨fun ⟨h, ho, hr, he, hw⟩ => ?_, fun ⟨⟨⟨hg, ho, hr⟩, hb⟩, he, hw⟩ => ?_⟩
  · exact ⟨⟨⟨fun d c => (h d c).1, ho, hr⟩, fun d c => (h d c).2⟩, he, hw⟩
  · exact ⟨fun d c => ⟨hg d c, hb d c⟩, ho, hr, he, hw⟩

/-- What keeps both laws, of the link states and of the match states. -/
structure State.Lawful (s t : State) : Prop where
  link : s.LinkLaw → t.LinkLaw
  notice : s.NoticeLaw → t.NoticeLaw

namespace State.Lawful

variable {s t u : State}

theorem refl (s : State) : s.Lawful s := ⟨id, id⟩

theorem trans (h : s.Lawful t) (k : t.Lawful u) : s.Lawful u :=
  ⟨fun x => k.link (h.link x), fun x => k.notice (h.notice x)⟩

/-- Ports that keep their laws and their links, and come to hold nothing where they are not UP. -/
theorem ofPorts (h : ∀ q, (s.port q).KeepsLaws (t.port q)) (hl : ∀ q, (t.port q).link = (s.port q).link)
    (hi : ∀ q, (s.port q).link ≠ .up → s.Idle q → t.Idle q) : s.Lawful t where
  link x := by
    rw [State.linkLaw_iff] at *
    refine fun q => ⟨(h q).law (x q).1, fun hu => ?_⟩
    rw [hl q] at hu
    exact hi q hu ((x q).2 hu)
  notice x := by
    rw [State.noticeLaw_iff] at *
    exact fun q => (h q).watched (x q)

theorem ofLasting (h : ∀ q, (t.port q).lasting = (s.port q).lasting)
    (hi : ∀ q, (s.port q).link ≠ .up → s.Idle q → t.Idle q) : s.Lawful t :=
  ofPorts (fun q => .ofLasting (h q)) (fun q => Port.link_ofLasting (h q)) hi

end State.Lawful

theorem State.Calm.lawful {s t : State} (h : s.Calm t) : s.Lawful t := .ofLasting h.port fun _ => h.idle

theorem State.Remaps.lawful {s t : State} {d : Did} (h : s.Remaps d t) : s.Lawful t := .ofLasting h.port h.idle

/-- A change of neither ports nor destinations. -/
theorem State.Lawful.ofRest {s t : State} (hp : t.ports = s.ports) (hd : t.dids = s.dids) : s.Lawful t :=
  .ofLasting (fun q => by unfold State.port; rw [hp])
    fun q _ hi => ⟨⟨by unfold State.port; rw [hp]; exact hi.1.1, fun d => by unfold State.did; rw [hd]; exact hi.1.2 d⟩,
      by unfold State.port; rw [hp]; exact hi.2⟩

theorem State.Turns.lawful {s t : State} {p : PortId} (h : s.Turns p t) (k : (s.port p).KeepsLaws (t.port p)) :
    s.Lawful t where
  link x := by
    rw [State.linkLaw_iff] at *
    intro q
    by_cases hq : q = p
    · subst hq
      exact ⟨k.law (x q).1, fun hl => h.idle hl (x q).2⟩
    · refine ⟨(Port.KeepsLaws.ofLasting (h.port q hq)).law (x q).1, fun hl => ?_⟩
      have hs : (s.port q).link ≠ .up := by rwa [← Port.link_ofLasting (h.port q hq)]
      exact h.others q hq hs ((x q).2 hs)
  notice x := by
    rw [State.noticeLaw_iff] at *
    intro q
    by_cases hq : q = p
    · subst hq
      exact k.watched (x q)
    · exact (Port.KeepsLaws.ofLasting (h.port q hq)).watched (x q)

theorem State.LinkEvent.lawful {s t : State} {p : PortId} (h : s.LinkEvent p t) : s.Lawful t := h.turns.lawful h.laws

/-- The notice unit keeps both laws where the event before it kept the masks, the expected values and the match
states (R174). -/
theorem noticeStep_lawful {s t : State} (hl : s.LinkLaw → t.LinkLaw)
    (hw : ∀ q, (t.port q).watchMask = (s.port q).watchMask ∧ (t.port q).watchExpect = (s.port q).watchExpect ∧
      (t.port q).watchMatch = (s.port q).watchMatch) : s.Lawful (noticeStep s t) := by
  have keeps (q : PortId) (h : (s.port q).LinkLaw → (t.port q).LinkLaw) :
      (s.port q).KeepsLaws ((t.port q).judgeNotice (s.port q).conditions) :=
    Port.judgeNotice_laws (hw q).1 (hw q).2.1 (hw q).2.2 h
  have judged : s.Lawful (t.mapPorts fun q P => P.judgeNotice (s.port q).conditions) := by
    constructor <;> intro x
    · have y := hl x
      rw [State.linkLaw_iff] at *
      intro q
      rw [State.mapPorts_port, (Port.judgeNotice_clears _ _).1]
      exact ⟨(keeps q fun _ => (y q).1).law (x q).1, fun h => t.judged_idle s ((y q).2 h)⟩
    · rw [State.noticeLaw_iff] at *
      intro q
      rw [State.mapPorts_port]
      unfold Port.judgeNotice
      split_ifs with hc
      · have := x q
        unfold Port.Watched at this ⊢
        rw [(hw q).1, (hw q).2.1, (hw q).2.2, hc, this]
      · rfl
  unfold noticeStep
  dsimp only
  split_ifs
  · exact judged.trans (State.offerNotices_calm _).lawful
  · exact judged

/-! ### The reset of the fabric -/

/-- The port in ACQUIRING with its elastic buffer recentred (R40). -/
def Port.recentred (P : Port) : Port :=
  { P.enterAcquiring with elastic := Config.elasticCentre,
                          lastDown := if P.link = LinkState.up then .fabricReset else P.lastDown }

/-- A FABRIC-RESET leaves a port in DISABLED or TEST, and takes another one to ACQUIRING, or to FAULTED with a cause
(R35, R40). -/
theorem Port.fabricLink_cases (P : Port) :
    ((P.link = .disabled ∨ P.link = .test) ∧ P.fabricLink = P) ∨
    (P.link ≠ .disabled ∧ P.link ≠ .test ∧
      P.fabricLink = if P.faultCause then P.recentred.enterFaulted else P.recentred) := by
  have entered (h : P.link ≠ .disabled) (k : P.link ≠ .test) : P.fabricLink =
      if P.recentred.faultCause then P.recentred.enterFaulted else P.recentred := by
    unfold Port.fabricLink
    cases hl : P.link <;> first | exact absurd hl h | exact absurd hl k | (simp only [Port.recentred, hl])
  by_cases h : P.link = .disabled
  · exact .inl ⟨.inl h, by unfold Port.fabricLink; rw [h]⟩
  · by_cases k : P.link = .test
    · exact .inl ⟨.inr k, by unfold Port.fabricLink; rw [k]⟩
    · exact .inr ⟨h, k, entered h k⟩

theorem Port.fabricLink_law {P : Port} (h : P.LinkLaw) : P.fabricLink.LinkLaw := by
  obtain ⟨-, e⟩ | ⟨hd, ht, e⟩ := P.fabricLink_cases <;> rw [e]
  · exact h
  · have he : P.settings.enable = true := by
      have hs := h.sound
      unfold Port.Sound at hs
      cases hl : P.link <;> simp only [hl] at hs
      case disabled => exact absurd hl hd
      case test => exact absurd hl ht
      all_goals exact hs.1
    cases hf : P.faultCause
    · exact ⟨he, hf, rfl, rfl, rfl, (by decide : 0 < 16), rfl⟩
    · exact ⟨he, hf, rfl, rfl, rfl, rfl, rfl⟩

/-- The state an accepted FABRIC-RESET leaves before its notices (R171). -/
def State.emptied (s : State) : State :=
  { (s.mapPorts fun _ P => P.fabricLink.fabricEmpty).mapDids (fun _ D => D.fabricReset) with
    markerUse := 0, owedMarkers := [], poolUse := 0, mcCells := [], elementUse := 0, cmdQueue := [],
    cmdUnit := .ready, mcHold := false }.judgeHold

theorem State.fabricReset_eq (s : State) : s.fabricReset = noticeStep s s.emptied := rfl

theorem State.port_congr {s t : State} (h : t.ports = s.ports) (q : PortId) : t.port q = s.port q := by
  unfold State.port
  rw [h]

theorem State.did_congr {s t : State} (h : t.dids = s.dids) (d : Did) : t.did d = s.did d := by
  unfold State.did
  rw [h]

theorem State.emptied_port (s : State) (q : PortId) : s.emptied.port q = (s.port q).fabricLink.fabricEmpty := by
  have same : s.emptied.ports = (s.mapPorts fun _ P => P.fabricLink.fabricEmpty).ports := by
    simp only [State.emptied, State.judgeHold, State.mapDids_ports]
  rw [State.port_congr same, State.mapPorts_port]

theorem State.emptied_did (s : State) (d : Did) : s.emptied.did d = (s.did d).fabricReset := by
  have same : s.emptied.dids = (s.mapDids fun _ D => D.fabricReset).dids := by
    simp only [State.emptied, State.judgeHold, State.mapDids, State.mapPorts_dids]
  rw [State.did_congr same, State.mapDids_did]

theorem Port.fabricLink_same (P : Port) : P.SameSettings P.fabricLink ∧ P.fabricLink.watchMatch = P.watchMatch := by
  obtain ⟨-, e⟩ | ⟨-, -, e⟩ := P.fabricLink_cases <;> rw [e]
  · exact ⟨.refl P, rfl⟩
  · cases P.faultCause <;> exact ⟨⟨rfl, rfl, rfl, rfl⟩, rfl⟩

theorem Port.fabricEmpty_grant (P : Port) (d : Did) (c : GClass) : P.fabricEmpty.grant d c = none := by
  unfold Port.grant Port.fabricEmpty
  dsimp only
  rw [tabMap_get, PerG.get_const]

theorem DidState.fabricReset_bids (D : DidState) : D.fabricReset.bids = .const [] := by
  unfold DidState.fabricReset
  cases D.map <;> rfl

/-- After a reset of the fabric nothing is held for any card (R91, R125, R171). -/
theorem State.emptied_idle (s : State) (q : PortId) : s.emptied.Idle q := by
  refine ⟨⟨?_, fun d c => ?_⟩, ?_, ?_⟩ <;> try rw [State.emptied_port]
  · exact ⟨Port.fabricEmpty_grant _, rfl, rfl⟩
  · rw [State.emptied_did, DidState.fabricReset_bids, PerG.get_const]
    rfl
  · rfl
  · rfl

theorem State.fabricReset_lawful (s : State) : s.Lawful s.fabricReset := by
  rw [State.fabricReset_eq]
  refine noticeStep_lawful (fun x => ?_) fun q => ?_
  · rw [State.linkLaw_iff] at *
    intro q
    refine ⟨?_, fun _ => s.emptied_idle q⟩
    rw [State.emptied_port]
    exact (Port.fabricLink_law (x q).1 : (s.port q).fabricLink.LinkLaw)
  · rw [State.emptied_port]
    obtain ⟨same, hm⟩ := Port.fabricLink_same (s.port q)
    exact ⟨same.mask, same.expect, hm⟩

/-! ### Commands -/

/-- A relation that traffic meets and that is transitive is met by a step of the command unit whose judgement meets
it (R159). -/
theorem commandStep_relates {R : State → State → Prop} (calm : ∀ {s t}, s.Calm t → R s t)
    (trans : ∀ {s t u}, R s t → R t u → R s u) {judge : CmdCell → State → Reply}
    (hj : ∀ cmd u, R u (judge cmd u).state) (want : Option Code) (s : State) :
    R s (commandStep want (fun c t => judgeCommand c judge t) s) := by
  obtain e | ⟨cmd, rest, -, -, -, e⟩ := commandStep_cases want (fun c t => judgeCommand c judge t) s <;> rw [e]
  · exact calm (.refl s)
  · have judged : R (s.takeCommand cmd rest) (judgeCommand cmd judge (s.takeCommand cmd rest)).state := by
      unfold judgeCommand
      split_ifs
      · exact hj cmd _
      · exact calm (.refl _)
    exact trans (calm (s.takeCommand_calm cmd rest)) (trans judged (calm (State.offerResponse_calm _ _ _)))

/-- A relation is met by a judgement that reads a value if it is met for every value, and where nothing changes. -/
theorem withValue_relates {α : Type} {R : State → State → Prop} {s : State} (refl : R s s) (x : Option α)
    {k : α → Reply} (h : ∀ a, R s (k a).state) : R s (withValue x s k).state := by
  cases x with
  | none => exact refl
  | some a => exact h a

end Sys2Proof.Machine
end

section
/-! PROOFS. The state after a device reset (R41, R44, R142): it meets every law, and what a port first sends. -/

namespace Sys2Proof.Machine

/-! ### What the state after a device reset is -/

@[simp] theorem State.reset_port (p : PortId) : State.reset.port p = .reset := by
  simp [State.port, State.reset]

@[simp] theorem State.reset_did (d : Did) : State.reset.did d = .reset d := by
  simp [State.did, State.reset]

@[simp] theorem State.reset_queue (d : Did) (c : Cls) : State.reset.queue d c = [] := by
  simp [State.queue, DidState.reset]

@[simp] theorem State.reset_bids (d : Did) (c : GClass) : State.reset.bids d c = [] := by
  simp [State.bids, DidState.reset]

@[simp] theorem State.reset_usage (d : Did) (c : GClass) : State.reset.usage d c = ⟨0, 0⟩ := by
  simp [State.usage, DidState.reset]

@[simp] theorem State.reset_grant (p : PortId) (d : Did) (c : GClass) : State.reset.grant p d c = none := by
  simp [State.grant, Port.grant, Port.reset]

@[simp] theorem State.reset_train (p : PortId) (d : Did) (c : Cls) : State.reset.train p d c = .idle := by
  simp [State.train, Port.train, Port.reset]

@[simp] theorem State.reset_mcTrain (p : PortId) (c : GClass) : State.reset.mcTrain p c = .idle := by
  simp [State.mcTrain, Port.reset]

/-- Every floor is 64 and no DID is used, so that no excess stands against the shared pool (R50, R63). -/
theorem State.reset_pool : State.reset.sharedPool = 12000 ∧ State.reset.excessSum = 0 := by
  have floors : State.reset.floorSum = 2048 := by
    have : (fun d => (State.reset.did d).floor) = fun _ => 64 := funext fun d => by simp [DidState.reset]
    rw [State.floorSum, this]
    decide
  have excess : State.reset.excess = fun _ => 0 := funext fun d => by
    simp [State.excess, DidState.excessOver, DidState.used, DidState.reset, PerG.const, Usage.total]
  refine ⟨?_, ?_⟩
  · rw [State.sharedPool, floors]
    rfl
  · rw [State.excessSum, excess]
    decide

theorem Port.reset_linkLaw : Port.reset.LinkLaw := by
  refine ⟨rfl, rfl, rfl, rfl, rfl, (by decide : 0 < 16), rfl⟩

theorem State.reset_linkLaw : State.reset.LinkLaw := by
  rw [State.linkLaw_iff]
  refine fun p => ⟨?_, fun _ => ⟨⟨⟨fun d c => State.reset_grant p d c, ?_⟩, fun d c => ?_⟩, ?_⟩⟩
  · rw [State.reset_port]; exact Port.reset_linkLaw
  · rw [State.reset_port]; exact ⟨rfl, rfl⟩
  · exact congrArg (bidOf p) (State.reset_bids d c)
  · rw [State.reset_port]; exact ⟨rfl, rfl⟩

theorem State.reset_noticeLaw : State.reset.NoticeLaw := by
  rw [State.noticeLaw_iff]
  intro p
  rw [State.reset_port]
  unfold Port.Watched
  decide

theorem State.reset_settingsLaw : State.reset.SettingsLaw := by
  have ports : State.reset.reportPorts = [] := by
    refine List.filter_eq_nil_iff.2 fun p _ => ?_
    rw [State.reset_port]
    decide
  refine ⟨fun p => ?_, ?_, ?_, ?_, by decide, by decide, by decide, by decide, by decide, by decide, fun d => ?_, ?_, ?_⟩
  · rw [State.reset_port]
    refine ⟨?_, ?_, ?_, ?_, ?_, ?_⟩ <;> decide
  · refine ⟨?_, ?_, ?_, ?_, ?_, ?_, ?_⟩ <;> decide
  · refine ⟨?_, ?_, ?_, ?_, ?_, ?_, ?_⟩ <;> decide
  · refine ⟨?_, ?_, ?_, ?_, ?_, ?_, ?_⟩ <;> decide
  · rw [State.reset_did]
    exact (by decide : 64 ≤ 512)
  · rw [State.reset_pool.1]
    decide
  · rw [ports]
    decide

theorem PatternUnit.reset_inRange : PatternUnit.reset.InRange := by
  refine ⟨by decide, by decide, by decide, by decide, by decide, by decide, by decide, fun _ => rfl, ?_, ?_,
    fun _ => ⟨rfl, rfl, rfl⟩, fun _ => rfl⟩
  · exact fun _ _ _ _ => Nat.zero_le _
  · intro period h
    simp [PatternUnit.reset] at h

theorem State.reset_rangeLaw : State.reset.RangeLaw := by
  intro p
  rw [State.reset_port]
  refine ⟨⟨by decide, by decide, by decide, fun _ => rfl, fun _ => rfl, fun c => ?_, by decide⟩,
    ⟨by decide, fun _ => rfl⟩, PatternUnit.reset_inRange, fun h => ?_, fun h => ?_⟩
  · cases c <;> decide
  · cases h
  · cases h

/-- Settles O4: each law is read off the state after a device reset. -/
theorem resetMeetsEveryLaw : Obligations.ResetMeetsEveryLaw := by
  have noElements : State.reset.elementUse = (allPorts.map fun p => (State.reset.port p).elements.length).sum := by
    simp only [State.reset_port]
    decide
  refine ⟨fun p => ?_, ⟨noElements, by decide⟩, ⟨by decide, by decide, List.nodup_nil, fun _ => rfl, fun p => ?_⟩,
    ⟨rfl, by decide, List.nodup_nil, ?_, ?_⟩, ?_, State.reset_settingsLaw, State.reset_linkLaw, fun d _ => ?_,
    fun d hd => ?_, ⟨fun d c => ?_, fun p => ?_⟩, ⟨fun d c => ?_, fun d => ?_, fun d c n h => ?_, ?_⟩,
    ⟨fun d c => ⟨?_, ?_⟩, fun p => ?_, ?_⟩, State.reset_noticeLaw, ⟨by decide, by decide⟩, State.reset_rangeLaw⟩
  · rw [State.reset_port]; decide
  · rw [State.reset_port]; exact ⟨by decide, by decide, List.nodup_nil⟩
  · exact fun _ h => nomatch h
  · exact fun _ h => nomatch h
  · unfold State.SharedPoolLaw
    rw [State.reset_pool.1, State.reset_pool.2]
    decide
  · exact ⟨fun c => State.reset_queue d c, fun c => State.reset_bids d c, fun _ h => (nomatch h),
      fun p => ⟨fun c => State.reset_grant p d c, fun c => State.reset_train p d c, fun c => by
        rw [State.reset_mcTrain]; simp [McTrain.idle, DidSet.has]⟩⟩
  · rw [State.reset_did] at hd
    unfold DidState.reset at hd
    dsimp only at hd
    split_ifs at hd <;> cases hd
  · rw [State.reset_bids]
    exact ⟨List.nodup_nil, fun _ h => (nomatch h), fun p g h => by rw [State.reset_grant] at h; cases h⟩
  · rw [State.reset_port]
    exact ⟨List.nodup_nil, fun _ h => (nomatch h)⟩
  · rw [State.reset_queue, State.reset_did]
    exact PerG.get_const 0 c
  · rw [State.reset_queue]; rfl
  · rw [State.reset_queue] at h; cases h
  · exact fun _ h => nomatch h
  · rw [State.reset_usage, State.reset_queue]; rfl
  · simp only [State.reset_usage, State.reset_grant]
    decide
  · simp only [State.reset_port, State.reset_queue, List.countP_nil, show State.reset.cmdQueue = [] from rfl]
    decide
  · have : (fun d => (State.reset.did d).marks) = fun _ => 0 := funext fun d => by
      rw [State.reset_did]; rfl
    rw [this]
    decide

/-! ### The first slot after a device reset -/

/-- Settles O11: every port is as `Port.reset` says, in ACQUIRING, where a slot sends FILL with aligned clear. -/
theorem deviceResetOfPorts : Obligations.DeviceResetOfPorts := by
  intro straps s
  refine ⟨_, rfl, fun p => ?_⟩
  have port : State.port { State.reset with plane := straps, pending := s.pending } p = .reset :=
    State.reset_port p
  rw [port]
  refine ⟨rfl, rfl, rfl, rfl, rfl, rfl, rfl, rfl, rfl, rfl, rfl, rfl, _, rfl, ?_⟩
  unfold State.slotOpens
  rw [port]
  change (State.port (State.updPort _ p _) p).sent = _
  rw [State.updPort_port_self]
  rfl

end Sys2Proof.Machine
end

section
/-! PROOFS. The statements over every command and every step: the laws of the link states and of the match states, and
the settings that each command leaves. -/

namespace Sys2Proof.Machine

/-! ### What a command may change -/

/-- The port at whose receiving side the command is an event. -/
def Instr.linkPort : Instr → Option PortId
  | .ingressCell p _ | .slip p _ | .stuckLineAssert p _ | .stuckBlockEnd p _ | .qualityCompletion p _ => some p
  | _ => none

/-- Between `s` and `t` the command `c` changes no setting but its own, and no link state and no entry of a DID that is
not its own, and it keeps the laws of the links and of the match states. The flags that NOTICE-READ clears are left
out. -/
structure State.Settled (c : Instr) (s t : State) : Prop where
  laws : s.Lawful t
  classes : c ≠ .classSet → t.classes = s.classes
  lifetime : c ≠ .lifetimeSet → t.lifetime = s.lifetime
  groups : c ≠ .groupSet → t.groups = s.groups
  lines : c ≠ .linesSet → t.status0 = s.status0 ∧ t.status1 = s.status1
  plane : t.plane = s.plane
  pool : c ≠ .poolSet → t.poolSize = s.poolSize ∧ t.holdOn = s.holdOn ∧ t.holdOff = s.holdOff
  floor : c ≠ .poolSet → ∀ d, (t.did d).floor = (s.did d).floor
  lost : c ≠ .countersRead → s.cmdLost.toNat ≤ t.cmdLost.toNat
  now : (∀ p d g, c ≠ .grantExpiry p d g) → (∀ d, c ≠ .moveDeadline d) → t.now = s.now
  entry : c ≠ .noticeRead → ∀ d, c ∉ [.mapSet, .mapMove, .fabricReset, .moveDeadline d] → (s.did d).Retargets (t.did d)
  settings : c ≠ .portSet → ∀ p, (t.port p).settings = (s.port p).settings
  test : c ≠ .testStart → ∀ p, (t.port p).test.settings = (s.port p).test.settings
  watch : c ≠ .noticeExpect → ∀ p, (t.port p).watchMask = (s.port p).watchMask ∧
    (t.port p).watchExpect = (s.port p).watchExpect
  link : c ∉ [.portSet, .testStart, .testStop, .fabricReset] → ∀ p, Instr.linkPort c ≠ some p →
    (t.port p).link = (s.port p).link

namespace State.Settled

variable {c : Instr} {s t u : State}

theorem trans (h : s.Settled c t) (k : t.Settled c u) : s.Settled c u where
  laws := h.laws.trans k.laws
  classes x := (k.classes x).trans (h.classes x)
  lifetime x := (k.lifetime x).trans (h.lifetime x)
  groups x := (k.groups x).trans (h.groups x)
  lines x := ⟨(k.lines x).1.trans (h.lines x).1, (k.lines x).2.trans (h.lines x).2⟩
  plane := k.plane.trans h.plane
  pool x := ⟨(k.pool x).1.trans (h.pool x).1, (k.pool x).2.1.trans (h.pool x).2.1, (k.pool x).2.2.trans (h.pool x).2.2⟩
  floor x d := (k.floor x d).trans (h.floor x d)
  lost x := (h.lost x).trans (k.lost x)
  now x y := (k.now x y).trans (h.now x y)
  entry x d y := DidState.Retargets.trans (h.entry x d y) (k.entry x d y)
  settings x p := (k.settings x p).trans (h.settings x p)
  test x p := (k.test x p).trans (h.test x p)
  watch x p := ⟨(k.watch x p).1.trans (h.watch x p).1, (k.watch x p).2.trans (h.watch x p).2⟩
  link x p y := (k.link x p y).trans (h.link x p y)

/-- What the settings of the element, its clock and the destinations show, with the ports to be settled yet. -/
theorem ofRest (hl : s.Lawful t) (hr : t.lasting = s.lasting) (hd : ∀ d, (s.did d).Follows (t.did d))
    (hc : s.cmdLost.toNat ≤ t.cmdLost.toNat)
    (settings : c ≠ .portSet → ∀ p, (t.port p).settings = (s.port p).settings)
    (test : c ≠ .testStart → ∀ p, (t.port p).test.settings = (s.port p).test.settings)
    (watch : c ≠ .noticeExpect → ∀ p, (t.port p).watchMask = (s.port p).watchMask ∧
      (t.port p).watchExpect = (s.port p).watchExpect)
    (link : c ∉ [.portSet, .testStart, .testStop, .fabricReset] → ∀ p, Instr.linkPort c ≠ some p →
      (t.port p).link = (s.port p).link) : s.Settled c t :=
  ⟨hl, fun _ => (congrArg State.classes hr :), fun _ => (congrArg State.lifetime hr :),
    fun _ => (congrArg State.groups hr :), fun _ => ⟨(congrArg State.status0 hr :), (congrArg State.status1 hr :)⟩,
    (congrArg State.plane hr :), fun _ => ⟨(congrArg State.poolSize hr :), (congrArg State.holdOn hr :),
      (congrArg State.holdOff hr :)⟩, fun _ d => (hd d).1, fun _ => hc, fun _ _ => (congrArg State.now hr :),
    fun _ d _ => (hd d).2, settings, test, watch, link⟩

/-- A command that writes settings of the element alone. -/
theorem ofSettings (hp : t.ports = s.ports) (hd : t.dids = s.dids)
    (classes : c ≠ .classSet → t.classes = s.classes) (lifetime : c ≠ .lifetimeSet → t.lifetime = s.lifetime)
    (groups : c ≠ .groupSet → t.groups = s.groups)
    (lines : c ≠ .linesSet → t.status0 = s.status0 ∧ t.status1 = s.status1) (plane : t.plane = s.plane)
    (pool : t.poolSize = s.poolSize ∧ t.holdOn = s.holdOn ∧ t.holdOff = s.holdOff)
    (lost : c ≠ .countersRead → s.cmdLost.toNat ≤ t.cmdLost.toNat)
    (now : (∀ p d g, c ≠ .grantExpiry p d g) → t.now = s.now) : s.Settled c t :=
  have port p := State.port_congr hp p
  have did d := State.did_congr hd d
  ⟨.ofRest hp hd, classes, lifetime, groups, lines, plane, fun _ => pool, fun _ d => by rw [did], lost,
    fun x _ => now x, fun _ d _ => by rw [did]; exact .inl ⟨rfl, rfl, rfl⟩, fun _ p => by rw [port], fun _ p => by rw [port],
    fun _ p => by rw [port]; exact ⟨rfl, rfl⟩, fun _ p _ => by rw [port]⟩

/-- A command that writes ports and destinations alone. -/
theorem ofBlocks (laws : s.Lawful t) (hr : t.lasting = s.lasting) (hc : t.cmdLost = s.cmdLost)
    (floor : ∀ d, (t.did d).floor = (s.did d).floor)
    (entry : c ≠ .noticeRead → ∀ d, c ∉ [.mapSet, .mapMove, .fabricReset, .moveDeadline d] →
      (s.did d).Retargets (t.did d))
    (same : ∀ p, (s.port p).SameSettings (t.port p))
    (link : c ∉ [.portSet, .testStart, .testStop, .fabricReset] → ∀ p, Instr.linkPort c ≠ some p →
      (t.port p).link = (s.port p).link) : s.Settled c t :=
  ⟨laws, fun _ => (congrArg State.classes hr :), fun _ => (congrArg State.lifetime hr :),
    fun _ => (congrArg State.groups hr :), fun _ => ⟨(congrArg State.status0 hr :), (congrArg State.status1 hr :)⟩,
    (congrArg State.plane hr :), fun _ => ⟨(congrArg State.poolSize hr :), (congrArg State.holdOn hr :),
      (congrArg State.holdOff hr :)⟩, fun _ => floor, fun _ => by rw [hc], fun _ _ => (congrArg State.now hr :),
    entry, fun _ p => (same p).settings, fun _ p => (same p).test, fun _ p => ⟨(same p).mask, (same p).expect⟩, link⟩

theorem ofCalm (h : s.Calm t) : s.Settled c t :=
  have same p := Port.SameSettings.ofLasting (h.port p)
  ofRest h.lawful h.rest h.did h.lost (fun _ p => (same p).settings) (fun _ p => (same p).test)
    (fun _ p => ⟨(same p).mask, (same p).expect⟩) fun _ p _ => h.link p

theorem refl (s : State) : s.Settled c s := ofCalm (.refl s)

/-- An event at port `p`, whose settings and whose link are settled yet. -/
theorem ofTurns {p : PortId} (h : s.Turns p t) (hl : (s.port p).KeepsLaws (t.port p))
    (settings : c ≠ .portSet → (t.port p).settings = (s.port p).settings)
    (test : c ≠ .testStart → (t.port p).test.settings = (s.port p).test.settings)
    (watch : c ≠ .noticeExpect → (t.port p).watchMask = (s.port p).watchMask ∧
      (t.port p).watchExpect = (s.port p).watchExpect)
    (link : c ∉ [.portSet, .testStart, .testStop, .fabricReset] → Instr.linkPort c ≠ some p →
      (t.port p).link = (s.port p).link) : s.Settled c t := by
  have at' {P : PortId → Prop} (self : P p) (others : ∀ q, q ≠ p → P q) (q : PortId) : P q := by
    by_cases hq : q = p
    · exact hq ▸ self
    · exact others q hq
  have same q hq := Port.SameSettings.ofLasting (h.port q hq)
  exact ofRest (h.lawful hl) h.rest h.did h.lost (fun x => at' (settings x) fun q hq => (same q hq).settings)
    (fun x => at' (test x) fun q hq => (same q hq).test)
    (fun x => at' (watch x) fun q hq => ⟨(same q hq).mask, (same q hq).expect⟩)
    (fun x => at' (link x) fun q hq _ => Port.link_ofLasting (h.port q hq))

theorem ofLinkEvent {p : PortId} (h : s.LinkEvent p t)
    (link : c ∉ [.portSet, .testStart, .testStop, .fabricReset] → Instr.linkPort c ≠ some p →
      (t.port p).link = (s.port p).link) : s.Settled c t :=
  ofTurns h.turns h.laws (fun _ => h.same.settings) (fun _ => h.same.test) (fun _ => ⟨h.same.mask, h.same.expect⟩) link

/-- An event at the receiving side of a link. -/
theorem ofLinkPort {p : PortId} (h : s.LinkEvent p t) (hp : Instr.linkPort c = some p) : s.Settled c t :=
  ofLinkEvent h fun _ hn => absurd hp hn

/-- An event at the entry of DID `d`, by a command that may change it. -/
theorem ofRemaps {d : Did} (h : s.Remaps d t) (hd : c ∈ [.mapSet, .mapMove, .moveDeadline d])
    (hn : (∀ e, c ≠ .moveDeadline e) → t.now = s.now) : s.Settled c t := by
  have same p := Port.SameSettings.ofLasting (h.port p)
  have field {α : Type} (g : State → α) (hg : ∀ x : State, ∀ n, g { x.lasting with now := n } = g x) : g t = g s := by
    rw [← hg t t.now, ← hg s t.now, ← h.rest]
    rfl
  refine ⟨h.lawful, fun _ => field State.classes fun _ _ => rfl, fun _ => field State.lifetime fun _ _ => rfl,
    fun _ => field State.groups fun _ _ => rfl,
    fun _ => ⟨field State.status0 fun _ _ => rfl, field State.status1 fun _ _ => rfl⟩, field State.plane fun _ _ => rfl,
    fun _ => ⟨field State.poolSize fun _ _ => rfl, field State.holdOn fun _ _ => rfl, field State.holdOff fun _ _ => rfl⟩,
    fun _ => h.floor, fun _ => h.lost, fun _ => hn, fun _ e he => (h.did e ?_).2, fun _ p => (same p).settings,
    fun _ p => (same p).test, fun _ p => ⟨(same p).mask, (same p).expect⟩, fun _ p _ => Port.link_ofLasting (h.port p)⟩
  rintro rfl
  simp only [List.mem_cons, List.not_mem_nil, or_false] at hd he
  tauto

end State.Settled

/-! ### The commands one by one -/

theorem State.Calm.now {s t : State} (h : s.Calm t) : t.now = s.now := (congrArg State.now h.rest :)

theorem State.applyMapSet_now (s : State) (d : Did) (m : DidMap) : (s.applyMapSet d m).now = s.now :=
  ((State.rejudgeBids_calm _ d).trans ((State.mapTrainsOf_calm _ d _).trans (State.mcForget_calm _ d))).now

theorem State.startMove_now (s : State) (d : Did) (port target : PortId) (code : Nat) :
    (s.startMove d port target code).now = s.now := by
  unfold State.startMove
  split_ifs
  · rfl
  · exact (State.judgeDrain_calm _ d).now

/-- POOL-SET judges the multicast hold anew, and writes the floors and the settings of the pool (R167). -/
theorem State.applyPoolSet_settled (s : State) (cmd : CmdCell) : s.Settled .poolSet (s.applyPoolSet cmd) := by
  have port p : (s.applyPoolSet cmd).port p = s.port p :=
    State.port_congr (by simp only [State.applyPoolSet, State.judgeHold, State.mapDids_ports]) p
  have did d : (s.applyPoolSet cmd).did d = { s.did d with floor := newFloor cmd d } :=
    (State.did_congr (t := s.applyPoolSet cmd) (s := s.mapDids fun d D => { D with floor := newFloor cmd d })
      (by simp only [State.applyPoolSet, State.judgeHold]) d).trans (State.mapDids_did s _ d)
  have idle q (h : s.Idle q) : (s.applyPoolSet cmd).Idle q := by
    refine ⟨⟨by rw [port]; exact h.1.1, fun d => ?_⟩, by rw [port]; exact h.2⟩
    rw [did]
    exact h.1.2 d
  have laws : s.Lawful (s.applyPoolSet cmd) := .ofLasting (fun q => by rw [port]) fun q _ => idle q
  refine ⟨laws, fun _ => ?_, fun _ => ?_, fun _ => ?_,
    fun _ => ⟨?_, ?_⟩, ?_, fun x => absurd rfl x, fun x => absurd rfl x, fun _ => Nat.le_of_eq ?_, fun _ _ => ?_,
    fun _ d _ => by rw [did]; exact .inl ⟨rfl, rfl, rfl⟩, fun _ p => by rw [port], fun _ p => by rw [port],
    fun _ p => by rw [port]; exact ⟨rfl, rfl⟩, fun _ p _ => by rw [port]⟩ <;>
    simp only [State.applyPoolSet, State.judgeHold, State.mapDids]

/-- NOTICE-EXPECT judges the watched conditions as they stand (R174). -/
theorem State.watch_settled (s : State) (p : PortId) (mask want : BitVec 5) :
    s.Settled .noticeExpect (s.updPort p fun P => { P with
      watchMask := mask, watchExpect := want, watchMatch := matchOf mask want P.conditions }) := by
  refine .ofTurns (s.updPort_turns p fun h => ⟨h, id, id, id⟩) ?_ (fun _ => ?_) (fun _ => ?_) (fun x => absurd rfl x)
    (fun _ _ => ?_) <;> rw [State.updPort_port_self]
  exact ⟨id, fun _ => rfl⟩

/-- NOTICE-READ clears the flags it reports (R176). -/
theorem State.noticesRead_settled (s : State) : s.Settled .noticeRead
    ((s.mapPorts fun _ P => { P with noticeFlag := false }).mapDids fun _ D => { D with moveDone := false }) := by
  have port p : (((s.mapPorts fun _ P => { P with noticeFlag := false }).mapDids fun _ D =>
      { D with moveDone := false }).port p) = { s.port p with noticeFlag := false } := by
    rw [State.mapDids_port, State.mapPorts_port]
  have did d : (((s.mapPorts fun _ P => { P with noticeFlag := false }).mapDids fun _ D =>
      { D with moveDone := false }).did d) = { s.did d with moveDone := false } := by
    rw [State.mapDids_did, State.mapPorts_did]
  refine .ofBlocks (.ofPorts (fun q => ?_) (fun q => ?_) fun q _ h => ⟨⟨?_, fun d => ?_⟩, ?_⟩)
    (by simp only [State.lasting, State.mapDids, State.mapPorts]) (by rw [State.mapDids_cmdLost, State.mapPorts_cmdLost])
    (fun d => ?_) (fun x => absurd rfl x) (fun p => ?_) fun _ p _ => ?_ <;> first | rw [port] | rw [did]
  · exact ⟨id, id⟩
  · exact h.1.1
  · exact h.1.2 d
  · exact h.2
  · exact ⟨rfl, rfl, rfl, rfl⟩

theorem State.fabricReset_settled (s : State) : s.Settled .fabricReset s.fabricReset := by
  have kept : s.emptied.Keeps .notice s.fabricReset := noticeStep_keeps s s.emptied
  refine .ofBlocks s.fabricReset_lawful ?_ ?_ (fun d => ?_) (fun _ d x => absurd (by simp) x) (fun p => ?_)
    fun x => absurd (by simp) x
  · exact (kept.restField State.lasting fun _ => rfl).trans (by simp only [State.lasting, State.emptied, State.judgeHold, State.mapDids, State.mapPorts])
  · exact (kept.restField State.cmdLost fun _ => rfl).trans (by simp only [State.emptied, State.judgeHold, State.mapDids, State.mapPorts])
  · exact (kept.didField DidState.floor (fun _ => rfl) d).trans (by rw [State.emptied_did]; unfold DidState.fabricReset; cases (s.did d).map <;> rfl)
  · have same := (Port.fabricLink_same (s.port p)).1
    have field {α : Type} (g : Port → α) (hg : ∀ P, g (View.notice.port P) = g P) :
        g (s.fabricReset.port p) = g (s.port p).fabricLink.fabricEmpty := by
      rw [kept.portField g hg p, State.emptied_port]
    exact ⟨(field Port.settings fun _ => rfl).trans same.settings,
      (field (fun P => P.test.settings) fun _ => rfl).trans same.test,
      (field Port.watchMask fun _ => rfl).trans same.mask, (field Port.watchExpect fun _ => rfl).trans same.expect⟩

theorem exec_settled (c : Instr) {s t : State} (hc : ∀ straps, c ≠ .deviceReset straps) (h : exec c s = .next t) :
    s.Settled c t := by
  have unit {c : Instr} {want : Option Code} {judge : CmdCell → State → Reply}
      (hj : ∀ (cmd : CmdCell) (u : State), u.Settled c (judge cmd u).state) :
      s.Settled c (commandStep want (fun x u => judgeCommand x judge u) s) :=
    commandStep_relates (R := State.Settled c) State.Settled.ofCalm State.Settled.trans hj want s
  have value {c : Instr} {α : Type} {u : State} (x : Option α) {k : α → Reply} (hk : ∀ a, u.Settled c (k a).state) :
      u.Settled c (withValue x u k).state := withValue_relates (.refl u) x hk
  cases c <;> cases h
  case deviceReset straps => exact absurd rfl (hc straps)
  case ingressCell p c => exact .ofLinkPort (s.cellArrives_linkEvent p c) rfl
  case slip p k => exact .ofLinkPort (s.slips_linkEvent p k) rfl
  case stuckLineAssert p bits | stuckBlockEnd p bits => exact .ofLinkPort (s.takeStuckBits_linkEvent p bits) rfl
  case qualityCompletion p fig => exact .ofLinkPort (s.qualityCompletes_linkEvent p fig) rfl
  case slot p => exact .ofLinkEvent (s.slotOpens_linkEvent p).1 fun _ _ => (s.slotOpens_linkEvent p).2
  case checkerSync p bits | testBlockEnd p bits | timebaseCompletion p bits =>
    exact .ofLinkEvent (s.takeTestBits_linkEvent p bits).1 fun _ _ => (s.takeTestBits_linkEvent p bits).2
  case grantIssue d g => exact .ofCalm (s.arbitrate_calm d g)
  case grantExpiry p d g =>
    obtain ⟨n, calm⟩ := s.expire_calm p d g
    have now : s.Settled (.grantExpiry p d g) { s with now := n } :=
      .ofSettings rfl rfl (fun _ => rfl) (fun _ => rfl) (fun _ => rfl) (fun _ => ⟨rfl, rfl⟩) rfl ⟨rfl, rfl, rfl⟩
        (fun _ => Nat.le_refl _) fun x => absurd rfl (x p d g)
    exact now.trans (.ofCalm (calm.trans (eventEnd_still calm.conditions)))
  case owedMarkerService => exact .ofCalm (eventEnd_calm s.serveOwed_calm)
  case drainedCutover d =>
    have calm := s.judgeDrain_calm d
    exact .ofCalm (calm.trans (noticeStep_calm s _ calm.conditions))
  case moveDeadline d =>
    have moved := s.forceMove_remaps d
    exact .ofRemaps (moved.trans ((eventEnd_still moved.conditions).remaps d)) (by simp) fun x => absurd rfl (x d)
  case heldResponseOffer => exact .ofCalm s.offerHeld_calm
  case identify => exact unit fun _ u => .refl u
  case portGet | mapGet | groupGet | testRead => exact unit fun _ u => value _ fun _ => .refl u
  case portSet =>
    refine unit fun cmd u => value _ fun p => ?_
    split_ifs
    · exact .refl u
    · exact .refl u
    · exact .refl u
    · obtain ⟨turned, test, mask, expect, laws⟩ := u.applyPortSet_event p cmd _ rfl
      exact .ofTurns turned laws (fun x => absurd rfl x) (fun _ => test) (fun _ => ⟨mask, expect⟩)
        fun x => absurd (by simp) x
  case classSet =>
    exact unit fun _ u => .ofSettings rfl rfl (fun x => absurd rfl x) (fun _ => rfl) (fun _ => rfl) (fun _ => ⟨rfl, rfl⟩)
      rfl ⟨rfl, rfl, rfl⟩ (fun _ => Nat.le_refl _) fun _ => rfl
  case lifetimeSet =>
    exact unit fun _ u => .ofSettings rfl rfl (fun _ => rfl) (fun x => absurd rfl x) (fun _ => rfl) (fun _ => ⟨rfl, rfl⟩)
      rfl ⟨rfl, rfl, rfl⟩ (fun _ => Nat.le_refl _) fun _ => rfl
  case groupSet =>
    exact unit fun _ u => value _ fun _ => .ofSettings rfl rfl (fun _ => rfl) (fun _ => rfl) (fun x => absurd rfl x)
      (fun _ => ⟨rfl, rfl⟩) rfl ⟨rfl, rfl, rfl⟩ (fun _ => Nat.le_refl _) fun _ => rfl
  case linesSet =>
    exact unit fun _ u => value _ fun _ => value _ fun _ => .ofSettings rfl rfl (fun _ => rfl) (fun _ => rfl)
      (fun _ => rfl) (fun x => absurd rfl x) rfl ⟨rfl, rfl, rfl⟩ (fun _ => Nat.le_refl _) fun _ => rfl
  case poolSet =>
    refine unit fun cmd u => ?_
    unfold doPoolSet
    dsimp only
    split_ifs
    · exact .refl u
    · exact .refl u
    · exact .refl u
    · exact u.applyPoolSet_settled cmd
  case mapSet =>
    refine unit fun cmd u => value _ fun d => value _ fun m => ?_
    split_ifs
    · exact .refl u
    · exact .ofRemaps (u.applyMapSet_remaps d m) (by simp) fun _ => u.applyMapSet_now d m
    · exact .refl u
  case mapMove =>
    refine unit fun cmd u => value _ fun d => value _ fun target => ?_
    split
    · exact .refl u
    · exact .refl u
    · have moved := u.startMove_remaps d ‹_› target (clampNat 0 3 (cmd.param 3).toNat)
      have notice := noticeStep_calm u _ moved.conditions
      exact .ofRemaps (moved.trans (notice.remaps d)) (by simp)
        fun _ => notice.now.trans (u.startMove_now d ‹_› target _)
  case noticeExpect =>
    exact unit fun cmd u => value _ fun p => u.watch_settled p _ _
  case noticeRead => exact unit fun _ u => u.noticesRead_settled
  case countersRead =>
    refine unit fun cmd u => ?_
    unfold doCountersRead
    dsimp only
    split
    · refine value _ fun p => ?_
      split
      · exact .ofCalm (u.countPort_calm p fun _ => .zero)
      · exact .refl u
    · refine value _ fun d => ?_
      split
      · exact .ofCalm (u.countDid_calm d fun _ => .zero)
      · exact .refl u
    · split
      · exact .ofSettings rfl rfl (fun _ => rfl) (fun _ => rfl) (fun _ => rfl) (fun _ => ⟨rfl, rfl⟩) rfl ⟨rfl, rfl, rfl⟩
          (fun x => absurd rfl x) fun _ => rfl
      · exact .refl u
    · exact .refl u
  case testStart =>
    refine unit fun cmd u => value _ fun p => value _ fun gen => value _ fun chk => value _ fun base => ?_
    split_ifs
    · exact .refl u
    · obtain ⟨turned, settings, mask, expect, laws⟩ := u.startTest_event p _ _ rfl
      exact .ofTurns turned laws (fun _ => settings) (fun x => absurd rfl x) (fun _ => ⟨mask, expect⟩)
        fun x => absurd (by simp) x
  case testStop =>
    exact unit fun _ u => value _ fun p => .ofLinkEvent (u.stopTest_linkEvent p) fun x => absurd (by simp) x
  case fabricReset =>
    split
    · next cmd rest _ _ =>
      dsimp only
      split_ifs
      · exact (State.Settled.ofCalm (s.takeCommand_calm cmd rest)).trans (State.fabricReset_settled _)
      · exact .ofCalm ((s.takeCommand_calm cmd rest).trans (State.offerResponse_calm _ _ _))
      · exact .refl s
    · exact .refl s
  case badCommand =>
    refine .ofCalm ?_
    obtain e | ⟨cmd, rest, -, -, -, e⟩ := commandStep_cases none doBadCommand s <;> rw [e]
    · exact .refl s
    · exact (s.takeCommand_calm cmd rest).trans (State.offerResponse_calm _ _ _)

/-! ### Entries under NOTICE-READ -/

theorem State.takeCommand_did (s : State) (cmd : CmdCell) (rest : List CmdCell) (d : Did) :
    (s.takeCommand cmd rest).did d = s.did d :=
  State.did_congr (by simp only [State.takeCommand, State.releaseCredit, State.updPort_dids]) d

theorem State.offerResponse_did (s : State) (p : PortId) (f : Frame) (d : Did) :
    (s.offerResponse p f).did d = s.did d := by
  obtain ⟨-, e⟩ | ⟨-, -, e⟩ | ⟨-, -, e⟩ := s.offerResponse_cases p f <;> rw [e]
  · exact State.did_congr (by simp only [State.placeElement, State.updPort_dids]) d
  · rfl

/-- What NOTICE-READ leaves before its response is offered (R176). -/
theorem doNoticeRead_map (cmd : CmdCell) (s : State) (d : Did) :
    ((judgeCommand cmd doNoticeRead s).state.did d).map = (s.did d).map := by
  unfold judgeCommand doNoticeRead
  split_ifs <;> simp only [Reply.accept, Reply.refuse, State.mapDids_did, State.mapPorts_did]

theorem execNoticeRead_map {s t : State} (h : exec .noticeRead s = .next t) (d : Did) :
    (t.did d).map = (s.did d).map := by
  cases h
  obtain e | ⟨cmd, rest, -, -, -, e⟩ := commandStep_cases (some .noticeRead) (fun c t => judgeCommand c doNoticeRead t) s
    <;> rw [e]
  rw [State.offerResponse_did, doNoticeRead_map, State.takeCommand_did]

/-! ### The statements -/

/-- Settles O3: every command settles, and NOTICE-READ keeps the entries. -/
theorem settingsChangeOnlyByTheirCommands : Obligations.SettingsChangeOnlyByTheirCommands := by
  intro c s t h hc
  have settled := exec_settled c hc h
  refine ⟨settled.classes, settled.lifetime, settled.groups, settled.lines, settled.plane, fun x => ?_, settled.lost,
    settled.now, fun d hd => ?_, fun p => ⟨(settled.settings · p), (settled.test · p), (settled.watch · p), fun hp => ?_⟩⟩
  · obtain ⟨hp, hon, hoff⟩ := settled.pool x
    exact ⟨hp, hon, hoff, settled.floor x⟩
  · by_cases hm : c ∈ [.mapSet, .mapMove, .fabricReset, .moveDeadline d]
    · exact .inl hm
    · by_cases hn : c = .noticeRead
      · subst hn
        exact absurd (execNoticeRead_map h d) hd
      · obtain ⟨same, -⟩ | drained := settled.entry hn d hm
        · exact absurd same hd
        · exact .inr drained
  · by_cases hl : c ∈ [.portSet, .testStart, .testStop, .fabricReset]
    · exact .inl hl
    · have hq : Instr.linkPort c = some p := by
        by_contra hq
        exact hp (settled.link hl p hq)
      right
      cases c <;> cases hq <;> simp

/-- Every step keeps both laws. -/
theorem step_lawful {s t : State} (h : step s = .next t) : s.Lawful t := by
  have command {c : Instr} {u : State} (hu : exec c u = .next t) : u.Lawful t := by
    by_cases hc : ∃ straps, c = .deviceReset straps
    · obtain ⟨straps, rfl⟩ := hc
      cases hu
      have same : State.reset.Lawful { State.reset with plane := straps, pending := u.pending } := .ofRest rfl rfl
      exact ⟨fun _ => same.link State.reset_linkLaw, fun _ => same.notice State.reset_noticeLaw⟩
    · exact (exec_settled c (fun straps hs => hc ⟨straps, hs⟩) hu).laws
  obtain ⟨c, rest, -, e⟩ | ⟨-, c, -, e⟩ | ⟨-, -, e⟩ := step_cases s <;> rw [e] at h
  · have popped : s.Lawful { s with pending := rest } := .ofRest rfl rfl
    exact popped.trans (command h)
  · exact command h
  · cases h
    exact .ofRest rfl rfl

/-- Settles O7: the laws of the links and of the match states are kept by every command. -/
theorem linkStatesAreKept : Obligations.LinkStatesAreKept :=
  ⟨fun _ _ hs h => (step_lawful h).link hs, fun _ _ hs h => (step_lawful h).notice hs⟩

end Sys2Proof.Machine
end

section
/-! PROOFS. What an accepted FABRIC-RESET leaves of each port, of each destination and of the rest. -/

namespace Sys2Proof.Machine

/-! ### Notices where no port is UP -/

theorem State.offerNotices_down {s : State} (h : ∀ q, s.isUp q = false) : s.offerNotices = s := by
  unfold State.offerNotices
  generalize noticeFrame s.noticeWord s.moveDoneWord = f
  induction s.reportPorts with
  | nil => rfl
  | cons p ps ih =>
    have none : s.offerNotice p f = s := by unfold State.offerNotice; rw [h p]; rfl
    rw [List.foldl_cons, none, ih]

/-- A notice that no port is UP to send is discarded (R177). -/
theorem noticeStep_down (s : State) {t : State} (h : ∀ q, (t.port q).link ≠ .up) :
    noticeStep s t = t.mapPorts fun q P => P.judgeNotice (s.port q).conditions := by
  unfold noticeStep
  dsimp only
  split_ifs
  · refine State.offerNotices_down fun q => ?_
    have same := (Port.judgeNotice_clears (t.port q) (s.port q).conditions).1
    rw [Bool.eq_false_iff, ne_eq, State.isUp_iff, State.mapPorts_port, same]
    exact h q
  · rfl

theorem Port.judgeNotice_eq (P : Port) (before : BitVec 5) :
    ∃ m n, P.judgeNotice before = { P with watchMatch := m, noticeFlag := n } := by
  unfold Port.judgeNotice
  split_ifs
  · exact ⟨_, _, rfl⟩
  · exact ⟨_, _, rfl⟩

/-! ### The reset of the fabric, block by block -/

theorem Port.fabricLink_link (P : Port) : P.fabricLink.link ≠ .up := by
  obtain ⟨h | h, e⟩ | ⟨-, -, e⟩ := P.fabricLink_cases <;> rw [e]
  · rw [h]; decide
  · rw [h]; decide
  · split_ifs
    · exact (by decide : LinkState.faulted ≠ .up)
    · exact (by decide : LinkState.acquiring ≠ .up)

theorem State.fabricReset_mapPorts (s : State) :
    s.fabricReset = s.emptied.mapPorts fun q P => P.judgeNotice (s.port q).conditions := by
  rw [State.fabricReset_eq]
  refine noticeStep_down s fun q => ?_
  rw [State.emptied_port]
  exact Port.fabricLink_link _

theorem State.fabricReset_port (s : State) (q : PortId) :
    ∃ m n, s.fabricReset.port q = { (s.port q).fabricLink.fabricEmpty with watchMatch := m, noticeFlag := n } := by
  rw [State.fabricReset_mapPorts, State.mapPorts_port, State.emptied_port]
  exact Port.judgeNotice_eq _ _

theorem State.fabricReset_did (s : State) (d : Did) : s.fabricReset.did d = (s.did d).fabricReset := by
  rw [State.fabricReset_mapPorts, State.mapPorts_did, State.emptied_did]

/-- The command that is taken changes the credits of its port alone (R155). -/
theorem State.takeCommand_port (s : State) (cmd : CmdCell) (rest : List CmdCell) (q : PortId) :
    ∃ h o, (s.takeCommand cmd rest).port q = { s.port q with held := h, owed := o } := by
  have same : (s.takeCommand cmd rest).port q = (s.releaseCredit cmd.src).port q :=
    State.port_congr (by simp only [State.takeCommand]) q
  rw [same, State.releaseCredit]
  by_cases hq : q = cmd.src
  · subst hq
    rw [State.updPort_port_self]
    split
    · exact ⟨_, _, rfl⟩
    · exact ⟨_, _, rfl⟩
  · rw [s.updPort_port_ne _ hq]
    exact ⟨_, _, rfl⟩

/-- What a port shows of its link after a reset of the fabric (R40). -/
theorem Port.fabricLink_shows (P : Port) :
    if P.link = .disabled ∨ P.link = .test then P.fabricLink.link = P.link ∧ P.fabricLink.lastDown = P.lastDown
    else P.fabricLink.link = (if P.faultCause then .faulted else .acquiring) ∧
      P.fabricLink.lastDown = (if P.link = .up then .fabricReset else P.lastDown) ∧
      P.fabricLink.alignCount = 0 ∧ P.fabricLink.failCount = 0 ∧ P.fabricLink.elastic = 4 ∧
      P.fabricLink.partnerAligned = false ∧ P.fabricLink.holds = ⟨false, false, false, false⟩ := by
  obtain ⟨h, e⟩ | ⟨hd, ht, e⟩ := P.fabricLink_cases
  · rw [if_pos h, e]
    exact ⟨rfl, rfl⟩
  · rw [if_neg (not_or.2 ⟨hd, ht⟩), e]
    cases P.faultCause <;> exact ⟨rfl, rfl, rfl, rfl, rfl, rfl, rfl⟩

/-- What a reset of the fabric keeps of a port (R40, R171). -/
theorem Port.fabricLink_keeps (P : Port) :
    P.fabricLink.settings = P.settings ∧ P.fabricLink.counters = P.counters ∧ P.fabricLink.stuck = P.stuck ∧
    P.fabricLink.quality = P.quality ∧ P.fabricLink.test = P.test ∧ P.fabricLink.round = P.round ∧
    P.fabricLink.watchMask = P.watchMask ∧ P.fabricLink.watchExpect = P.watchExpect := by
  obtain ⟨-, e⟩ | ⟨-, -, e⟩ := P.fabricLink_cases <;> rw [e]
  · exact ⟨rfl, rfl, rfl, rfl, rfl, rfl, rfl, rfl⟩
  · cases P.faultCause <;> exact ⟨rfl, rfl, rfl, rfl, rfl, rfl, rfl, rfl⟩

theorem Port.fabricEmpty_train (P : Port) (d : Did) (c : Cls) : P.fabricEmpty.train d c = .idle := by
  unfold Port.train Port.fabricEmpty
  dsimp only
  rw [tabMap_get, PerClass.get_const]

/-- A port that was emptied, as far as nothing of its link is said. -/
theorem State.fabricReset_empty (s : State) (p : PortId) :
    (s.fabricReset.port p).elements = [] ∧ (s.fabricReset.port p).grantOutbox = [] ∧
    (s.fabricReset.port p).refusalOutbox = [] ∧ (s.fabricReset.port p).held = 0 ∧ (s.fabricReset.port p).owed = 0 ∧
    (∀ (d : Did) (c : GClass), s.fabricReset.grant p d c = none) ∧
    (∀ (d : Did) (c : Cls), s.fabricReset.train p d c = .idle) ∧
    (∀ c : GClass, s.fabricReset.mcTrain p c = ⟨.idle, 0⟩) := by
  obtain ⟨m, n, e⟩ := s.fabricReset_port p
  unfold State.grant State.train State.mcTrain
  rw [e]
  exact ⟨rfl, rfl, rfl, rfl, rfl, (s.port p).fabricLink.fabricEmpty_grant,
    (s.port p).fabricLink.fabricEmpty_train, fun c => PerG.get_const _ c⟩

theorem State.fabricReset_emptied (s : State) (d : Did) :
    (s.fabricReset.did d).floor = (s.did d).floor ∧ (s.fabricReset.did d).counters = (s.did d).counters ∧
    (∀ c : GClass, s.fabricReset.usage d c = ⟨0, 0⟩ ∧ s.fabricReset.bids d c = [] ∧
      (s.fabricReset.did d).mcRefs.get c = 0) ∧
    (∀ c : Cls, s.fabricReset.queue d c = []) := by
  unfold State.usage State.bids State.queue
  rw [s.fabricReset_did d]
  unfold DidState.fabricReset
  cases (s.did d).map <;> exact ⟨rfl, rfl,
    fun c => ⟨PerG.get_const _ c, PerG.get_const _ c, PerG.get_const _ c⟩, fun c => PerClass.get_const _ c⟩

/-- The multicast hold is judged from off, with the pool empty (R137, R141). -/
theorem holdAfter_off (free on off : Nat) : holdAfter false free on off = decide (free ≤ on) := by
  unfold holdAfter
  split_ifs with h h' <;> simp [h]

theorem execFabricReset_accepted {s : State} {cmd : CmdCell} {rest : List CmdCell} (hu : s.cmdUnit = .ready)
    (hq : s.cmdQueue = cmd :: rest) (hr : cmd.reading = some .fabricReset)
    (hm : (s.port cmd.src).settings.mayCommand = true) :
    exec .fabricReset s = .next (s.takeCommand cmd rest).fabricReset := by
  have may : ((s.takeCommand cmd rest).port cmd.src).settings.mayCommand = true := by
    obtain ⟨h, o, e⟩ := s.takeCommand_port cmd rest cmd.src
    rw [e]
    exact hm
  show execFabricReset s = _
  unfold execFabricReset
  rw [hu, hq]
  dsimp only
  rw [if_pos hr, if_pos may]

/-- Settles O13: the reset of the fabric writes each port and each destination by itself, and no notice of it finds a
port that is UP. -/
theorem fabricResetEmptiesTheElement : Obligations.FabricResetEmptiesTheElement := by
  intro s cmd rest hu hq hr hm
  refine ⟨_, execFabricReset_accepted hu hq hr hm, fun p => ?_, fun d => ?_, ?_⟩
  · obtain ⟨h, o, taken⟩ := s.takeCommand_port cmd rest p
    obtain ⟨m, n, e⟩ := (s.takeCommand cmd rest).fabricReset_port p
    obtain ⟨elements, grantOutbox, refusalOutbox, held, owed, grants, trains, mcTrains⟩ :=
      (s.takeCommand cmd rest).fabricReset_empty p
    rw [taken] at e
    obtain ⟨settings, counters, stuck, quality, test, round, mask, expect⟩ :=
      Port.fabricLink_keeps { s.port p with held := h, owed := o }
    have shows := Port.fabricLink_shows { s.port p with held := h, owed := o }
    refine ⟨?_, ?_, ?_, ?_, ?_, ?_, ?_, ?_, elements, grantOutbox, refusalOutbox, held, owed, grants, trains, mcTrains, ?_⟩ <;>
      rw [e]
    · exact settings
    · exact counters
    · exact stuck
    · exact quality
    · exact test
    · exact round
    · exact mask
    · exact expect
    · exact shows
  · obtain ⟨floor, counters, stores, queues⟩ := (s.takeCommand cmd rest).fabricReset_emptied d
    rw [s.takeCommand_did cmd rest d] at floor counters
    refine ⟨floor, counters, stores, queues, ?_⟩
    rw [State.fabricReset_did, s.takeCommand_did cmd rest d]
    unfold DidState.fabricReset
    cases (s.did d).map <;> exact ⟨rfl, rfl, rfl⟩
  · rw [State.fabricReset_mapPorts]
    simp only [State.emptied, State.judgeHold, State.mapPorts, State.mapDids, State.takeCommand, State.releaseCredit,
      State.updPort, State.freeMulticast, holdAfter_off, Nat.sub_zero, and_self]

end Sys2Proof.Machine
end

section
/-! PROOFS. What the end of an event adds to an event that wrote one port alone: nothing, or the notices. -/

namespace Sys2Proof.Machine

theorem Vector.ext_get {α : Type} {n : Nat} {v w : Vector α n} (h : ∀ i : Fin n, v[i] = w[i]) : v = w :=
  Vector.ext fun i hi => h ⟨i, hi⟩

theorem State.dids_eq {s t : State} (h : ∀ d, t.did d = s.did d) : t.dids = s.dids := Vector.ext_get h

/-- A port at the end of an event: judged by the notice unit, its element list grown by notices (R174, R177). -/
theorem noticeStep_port (s t : State) (q : PortId) : ∃ fs, (noticeStep s t).port q =
    { (t.port q).judgeNotice (s.port q).conditions with elements := (t.port q).elements ++ fs } := by
  have same : ((t.port q).judgeNotice (s.port q).conditions).elements = (t.port q).elements := by
    unfold Port.judgeNotice
    split_ifs <;> rfl
  unfold noticeStep
  dsimp only
  split_ifs
  · obtain ⟨fs, e⟩ := (t.mapPorts fun q P => P.judgeNotice (s.port q).conditions).offerNotices_port q
    refine ⟨fs, ?_⟩
    rw [e, State.mapPorts_port, same]
  · refine ⟨[], ?_⟩
    rw [State.mapPorts_port, List.append_nil, ← same]

theorem noticeStep_dids (s t : State) : (noticeStep s t).dids = t.dids :=
  State.dids_eq fun d => (noticeStep_keeps s t).did d

/-- The notice unit looks at the conditions and at the flags of the state before (R174, R177). -/
theorem eventEnd_congr {s u : State} (t : State) (hc : ∀ q, (u.port q).conditions = (s.port q).conditions)
    (hd : ∀ d, u.drained d = s.drained d) (hn : u.noticePending = s.noticePending) : eventEnd u t = eventEnd s t := by
  have step : u.drainStep t = s.drainStep t := by
    unfold State.drainStep
    simp only [hd]
  unfold eventEnd noticeStep
  simp only [step, hc, hn]

section OnePort

variable {s : State} {p : PortId} {f : Port → Port}

/-- A write of one port that touches neither records nor unsent grants brings no cutover (R147, R148). -/
theorem eventEnd_alone (hg : (f (s.port p)).grants = (s.port p).grants)
    (hb : (f (s.port p)).grantOutbox = (s.port p).grantOutbox) :
    eventEnd s (s.updPort p f) = noticeStep s (s.updPort p f) := by
  refine eventEnd_quiet s _ fun d _ hd => (State.drained_congr d (s.updPort_dids p f) (s.updPort_owedMarkers p f)
    (fun q => ?_) fun q => ?_).symm.trans hd <;> rw [State.updPort_port] <;> split_ifs with hq
  · rw [hq, hg]
  · rfl
  · rw [hq, hb]
  · rfl

/-- The port that was written, at the end of its event. -/
theorem eventEnd_alone_port (hg : (f (s.port p)).grants = (s.port p).grants)
    (hb : (f (s.port p)).grantOutbox = (s.port p).grantOutbox) : ∃ fs m n,
      (eventEnd s (s.updPort p f)).port p =
        { f (s.port p) with elements := (f (s.port p)).elements ++ fs, watchMatch := m, noticeFlag := n } := by
  rw [eventEnd_alone hg hb]
  obtain ⟨fs, e⟩ := noticeStep_port s (s.updPort p f) p
  obtain ⟨m, n, judged⟩ := Port.judgeNotice_eq (f (s.port p)) (s.port p).conditions
  rw [State.updPort_port_self, judged] at e
  exact ⟨fs, m, n, e⟩

/-- Another port, whose element list may have grown by notices. -/
theorem eventEnd_alone_others (hg : (f (s.port p)).grants = (s.port p).grants)
    (hb : (f (s.port p)).grantOutbox = (s.port p).grantOutbox) {q : PortId} (hq : q ≠ p) :
    ∃ fs, (eventEnd s (s.updPort p f)).port q = { s.port q with elements := (s.port q).elements ++ fs } := by
  rw [eventEnd_alone hg hb]
  obtain ⟨fs, e⟩ := noticeStep_port s (s.updPort p f) q
  rw [s.updPort_port_ne f hq, Port.judgeNotice, if_pos rfl] at e
  exact ⟨fs, e⟩

/-- What an event that wrote one port leaves of the rest. -/
theorem eventEnd_alone_rest (hg : (f (s.port p)).grants = (s.port p).grants)
    (hb : (f (s.port p)).grantOutbox = (s.port p).grantOutbox) :
    (eventEnd s (s.updPort p f)).dids = s.dids ∧ (eventEnd s (s.updPort p f)).cmdQueue = s.cmdQueue ∧
      (eventEnd s (s.updPort p f)).mcCells = s.mcCells := by
  rw [eventEnd_alone hg hb]
  have kept := noticeStep_keeps s (s.updPort p f)
  exact ⟨(noticeStep_dids s _).trans (s.updPort_dids p f), kept.restField State.cmdQueue fun _ => rfl,
    kept.restField State.mcCells fun _ => rfl⟩

/-- A write that no watched condition and no flag shows ends with nothing more. -/
theorem eventEnd_alone_still (hg : (f (s.port p)).grants = (s.port p).grants)
    (hb : (f (s.port p)).grantOutbox = (s.port p).grantOutbox)
    (hc : (f (s.port p)).conditions = (s.port p).conditions) (hn : (f (s.port p)).noticeFlag = (s.port p).noticeFlag) :
    eventEnd s (s.updPort p f) = s.updPort p f := by
  rw [eventEnd_alone hg hb]
  refine noticeStep_quiet s _ (fun q => ?_) fun h => ?_
  · rw [State.updPort_port]
    split_ifs with hq
    · rw [hq, hc]
    · rfl
  · have flags q : ((s.updPort p f).port q).noticeFlag = (s.port q).noticeFlag := by
      rw [State.updPort_port]
      split_ifs with hq
      · rw [hq, hn]
      · rfl
    simpa only [State.noticePending, flags, State.updPort_did] using h

end OnePort

end Sys2Proof.Machine
end

section
/-! PROOFS. The handshake, the byte search one candidate at a time, and the slip of a port that stays where it is. -/

namespace Sys2Proof.Machine

/-! ### The byte search -/

/-- The candidate header behind the bytes to skip (R21). -/
def candidate (bytes : List Byte) (skip : Nat) : HeaderBytes := Vector.ofFn fun i => (bytes.drop skip).getD i.val 0

theorem candidate_eq {bytes : List Byte} {skip : Nat} {h : HeaderBytes}
    (hh : ∀ i : Fin 16, h[i] = bytes.getD (skip + i.val) 0) : candidate bytes skip = h := by
  refine Vector.ext_get fun i => ?_
  rw [hh i]
  simp [candidate]

/-- The search where the candidate is not complete yet. -/
theorem searchHeaders_short {bytes : List Byte} {skip : Nat} (h : bytes.length < skip + 16) (fuel count : Nat) :
    searchHeaders (fuel + 1) bytes skip count = .more (bytes.drop skip) (skip - bytes.length) count := by
  unfold searchHeaders
  have waits : (bytes.drop skip).length < Config.headerBytes ∨ 0 < skip - bytes.length := by
    rw [List.length_drop, Config.headerBytes]
    omega
  dsimp only
  rw [if_pos waits]

/-- The search at a complete candidate (R21, R22). -/
theorem searchHeaders_step {bytes : List Byte} {skip : Nat} (h : skip + 16 ≤ bytes.length) (fuel count : Nat) :
    searchHeaders (fuel + 1) bytes skip count =
      if headerPasses (candidate bytes skip) then
        if 15 ≤ count then .aligned (candidate bytes skip) else searchHeaders fuel (bytes.drop skip) 144 (count + 1)
      else searchHeaders fuel (bytes.drop skip) 1 0 := by
  have complete : ¬ ((bytes.drop skip).length < Config.headerBytes ∨ 0 < skip - bytes.length) := by
    rw [List.length_drop, Config.headerBytes]
    omega
  have target : Config.alignTarget ≤ count + 1 ↔ 15 ≤ count := by
    rw [Config.alignTarget]
    omega
  conv_lhs => unfold searchHeaders
  dsimp only
  rw [if_neg complete]
  simp only [ge_iff_le, target]
  rfl

/-- Fuel beyond the bytes that are left changes nothing. -/
theorem searchHeaders_fuel (fuel fuel' : Nat) (bytes : List Byte) (skip count : Nat) (h : bytes.length - skip < fuel)
    (h' : bytes.length - skip < fuel') : searchHeaders fuel bytes skip count = searchHeaders fuel' bytes skip count := by
  induction fuel generalizing fuel' bytes skip count with
  | zero => omega
  | succ fuel ih =>
    obtain ⟨fuel', rfl⟩ : ∃ n, fuel' = n + 1 := ⟨fuel' - 1, by omega⟩
    by_cases hs : bytes.length < skip + 16
    · rw [searchHeaders_short hs, searchHeaders_short hs]
    · have next (k c : Nat) (hk : 0 < k) : searchHeaders fuel (bytes.drop skip) k c =
          searchHeaders fuel' (bytes.drop skip) k c := by
        refine ih fuel' _ k c ?_ ?_ <;> rw [List.length_drop] <;> omega
      rw [searchHeaders_step (by omega), searchHeaders_step (by omega), next 144 _ (by decide), next 1 _ (by decide)]

/-- Bytes that are passed may as well be skipped. -/
theorem searchHeaders_drop (fuel : Nat) (bytes : List Byte) (skip k count : Nat) (h : skip ≤ bytes.length) :
    searchHeaders (fuel + 1) (bytes.drop skip) k count = searchHeaders (fuel + 1) bytes (skip + k) count := by
  have left : k - (bytes.drop skip).length = skip + k - bytes.length := by
    rw [List.length_drop]
    omega
  unfold searchHeaders
  simp only [List.drop_drop, left]

/-- The whole search over `bytes`, with fuel enough. -/
def search (bytes : List Byte) (skip count : Nat) : Search := searchHeaders (bytes.length + 1) bytes skip count

theorem search_short {bytes : List Byte} {skip : Nat} (h : bytes.length < skip + 16) (count : Nat) :
    search bytes skip count = .more (bytes.drop skip) (skip - bytes.length) count := searchHeaders_short h _ _

/-- The search one candidate at a time. -/
theorem search_step {bytes : List Byte} {skip : Nat} (h : skip + 16 ≤ bytes.length) (count : Nat) :
    search bytes skip count =
      if headerPasses (candidate bytes skip) then
        if 15 ≤ count then .aligned (candidate bytes skip) else search bytes (skip + 144) (count + 1)
      else search bytes (skip + 1) 0 := by
  obtain ⟨n, hn⟩ : ∃ n, bytes.length = n + 1 := ⟨bytes.length - 1, by omega⟩
  have next (k c : Nat) (hk : 0 < k) : searchHeaders bytes.length (bytes.drop skip) k c = search bytes (skip + k) c := by
    rw [search, hn, searchHeaders_drop n bytes skip k c (by omega)]
    refine searchHeaders_fuel _ _ _ _ _ ?_ ?_ <;> omega
  rw [← next 144 _ (by decide), ← next 1 _ (by decide)]
  exact searchHeaders_step h _ _

/-! ### Received bytes in ACQUIRING -/

/-- The state in which the search at port `p` leaves `s` (R21, R22). -/
def State.searched (s : State) (p : PortId) : Search → State
  | .more rest skip count =>
    s.updPort p fun P => { P with searchBytes := rest, searchSkip := skip, alignCount := count }
  | .aligned header => s.updPort p (Port.alignedBy s.classes (IngressHeader.read header))

theorem State.searched_more (s : State) (p : PortId) (rest : List Byte) (skip count : Nat) :
    s.searched p (.more rest skip count) =
      s.updPort p fun P => { P with searchBytes := rest, searchSkip := skip, alignCount := count } := rfl

theorem State.searched_aligned (s : State) (p : PortId) (header : HeaderBytes) :
    s.searched p (.aligned header) = s.updPort p (Port.alignedBy s.classes (IngressHeader.read header)) := rfl

theorem State.acquire_searched (s : State) (p : PortId) (c : RawCell) :
    s.acquire p c = s.searched p
      (search ((s.port p).searchBytes ++ cellBytesOf c) (s.port p).searchSkip (s.port p).alignCount) := by
  obtain ⟨rest, skip, count, e, ha⟩ | ⟨header, e, ha⟩ := s.acquire_cases p c _ rfl <;>
    rw [ha, search, e] <;> rfl

theorem exec_acquire {s : State} {p : PortId} (c : RawCell) (hl : (s.port p).link = .acquiring) :
    exec (.ingressCell p c) s = .next (eventEnd s (s.searched p
      (search ((s.port p).searchBytes ++ cellBytesOf c) (s.port p).searchSkip (s.port p).alignCount))) := by
  rw [← State.acquire_searched]
  show Host.Outcome.next (s.cellArrives p c) = _
  unfold State.cellArrives
  simp only [hl]

/-- A search that goes on changes no watched condition. -/
theorem eventEnd_searched_more (s : State) (p : PortId) (rest : List Byte) (skip count : Nat) :
    eventEnd s (s.searched p (.more rest skip count)) = s.searched p (.more rest skip count) := by
  rw [State.searched_more]
  exact eventEnd_updPort s p _ (fun _ => rfl) (fun _ => rfl) (fun _ => rfl) fun _ => rfl

/-- What the search of the port holds has no part in the state the search leaves. -/
theorem State.searched_moved (s : State) (p : PortId) (skip count : Nat) (r : Search) :
    (s.updPort p fun P => { P with searchSkip := skip, alignCount := count }).searched p r = s.searched p r := by
  cases r with
  | more rest skip' count' =>
    rw [State.searched_more, State.searched_more, State.updPort_updPort]
  | aligned header =>
    rw [State.searched_aligned, State.searched_aligned, State.updPort_updPort, State.updPort_classes]
    refine State.updPort_congr s p ?_
    unfold Port.alignedBy
    dsimp only
    split_ifs <;> rfl

/-- An arrival whose search is as far with the candidate moved on. -/
theorem exec_acquire_moved {s : State} {p : PortId} (c : RawCell) (hl : (s.port p).link = .acquiring)
    (skip count : Nat)
    (h : search ((s.port p).searchBytes ++ cellBytesOf c) (s.port p).searchSkip (s.port p).alignCount =
      search ((s.port p).searchBytes ++ cellBytesOf c) skip count) :
    exec (.ingressCell p c) s = exec (.ingressCell p c)
      (s.updPort p fun P => { P with searchSkip := skip, alignCount := count }) := by
  have port := State.updPort_port_self s p fun P => { P with searchSkip := skip, alignCount := count }
  rw [exec_acquire c hl, exec_acquire c (by rw [port]; exact hl), h, port, State.searched_moved]
  refine congrArg _ (eventEnd_congr _ (fun q => ?_) (fun d => ?_) ?_).symm
  · rw [State.updPort_port]
    split_ifs with hq
    · subst hq; rfl
    · rfl
  · exact s.updPort_drained p d _ (fun _ => rfl) fun _ => rfl
  · have flags q : ((s.updPort p fun P => { P with searchSkip := skip, alignCount := count }).port q).noticeFlag =
        (s.port q).noticeFlag := by
      rw [State.updPort_port]
      split_ifs with hq
      · subst hq; rfl
      · rfl
    simp only [State.noticePending, flags, State.updPort_did]

/-- What the header that completes alignment leaves of its port (R22, R25). -/
theorem Port.alignedBy_shows (classes : PerG ClassSettings) (h : IngressHeader) (P : Port) :
    (P.alignedBy classes h).alignCount = 16 ∧ (P.alignedBy classes h).failCount = 0 ∧
    (P.alignedBy classes h).link = (if h.aligned then .up else .waiting) ∧
    (P.alignedBy classes h).partnerAligned = h.aligned ∧ (P.alignedBy classes h).holds = h.holds ∧
    (P.alignedBy classes h).counters = P.counters ∧ (P.alignedBy classes h).grants = P.grants ∧
    (P.alignedBy classes h).grantOutbox = P.grantOutbox := by
  unfold Port.alignedBy
  cases ha : h.aligned <;> exact ⟨rfl, rfl, rfl, ha, rfl, rfl, rfl, rfl⟩

/-- The event of the header that completes alignment. -/
theorem eventEnd_aligned (s : State) (p : PortId) (header : HeaderBytes) :
    ∃ t, eventEnd s (s.searched p (.aligned header)) = t ∧ (t.port p).alignCount = 16 ∧
      (t.port p).link = (if (IngressHeader.read header).aligned then .up else .waiting) ∧
      (t.port p).partnerAligned = (IngressHeader.read header).aligned ∧
      (t.port p).holds = (IngressHeader.read header).holds ∧ (t.port p).failCount = 0 ∧
      (t.port p).counters = (s.port p).counters ∧ t.dids = s.dids ∧ t.cmdQueue = s.cmdQueue := by
  obtain ⟨align, fail, link, partner, holds, counters, hg, hb⟩ :=
    Port.alignedBy_shows s.classes (IngressHeader.read header) (s.port p)
  obtain ⟨fs, m, n, port⟩ := eventEnd_alone_port hg hb
  obtain ⟨dids, queue, -⟩ := eventEnd_alone_rest hg hb
  refine ⟨_, rfl, ?_, ?_, ?_, ?_, ?_, ?_, dids, queue⟩ <;> rw [State.searched_aligned, port]
  · exact align
  · exact link
  · exact partner
  · exact holds
  · exact fail
  · exact counters

/-- Settles O17: the search over the bytes not passed, unfolded by one candidate. -/
theorem theByteSearchFollowsTheStream : Obligations.TheByteSearchFollowsTheStream := by
  rintro s p c P bytes h rfl hl rfl hh
  have assoc : (s.port p).searchBytes ++ c.header.toList ++ c.payload.toList = (s.port p).searchBytes ++ cellBytesOf c :=
    List.append_assoc _ _ _
  rw [assoc] at hh ⊢
  have step (hlen : (s.port p).searchSkip + 16 ≤ ((s.port p).searchBytes ++ cellBytesOf c).length) :=
    search_step hlen (s.port p).alignCount
  rw [candidate_eq hh] at step
  refine ⟨fun hlen => ?_, fun hlen hp => ?_, fun hlen hp hn => ?_, fun hlen hp hn => ?_⟩
  · rw [exec_acquire c hl, search_short hlen, eventEnd_searched_more]
    rfl
  · rw [exec_acquire_moved c hl ((s.port p).searchSkip + 1) 0 (by rw [step hlen, hp]; rfl)]
    exact congrArg _ (State.updPort_congr s p rfl)
  · rw [exec_acquire_moved c hl ((s.port p).searchSkip + 144) ((s.port p).alignCount + 1)
      (by rw [step hlen, hp, if_pos rfl, if_neg (by omega)])]
    exact congrArg _ (State.updPort_congr s p rfl)
  · have found := step hlen
    rw [hp, if_pos rfl, if_pos hn] at found
    obtain ⟨t, ht, align, link, partner, holds, fail, -, dids, queue⟩ := eventEnd_aligned s p h
    exact ⟨t, by rw [exec_acquire c hl, found, ht], align, fail, link, partner, holds, dids, queue⟩

/-! ### The handshake -/

/-- With nothing held of the stream, the cell's own header is the candidate. -/
theorem search_cell (c : RawCell) (hp : headerPasses c.header = true) (count : Nat) :
    search (cellBytesOf c) 0 count = if 15 ≤ count then .aligned c.header else .more [] 0 (count + 1) := by
  have len : (cellBytesOf c).length = 144 := by
    unfold cellBytesOf
    rw [List.length_append, Vector.length_toList, Vector.length_toList]
  have own : candidate (cellBytesOf c) 0 = c.header := candidate_eq fun i => by
    have hi : 0 + i.val < c.header.toList.length := by rw [Vector.length_toList]; omega
    unfold cellBytesOf
    rw [List.getD_append _ _ _ _ hi, List.getD_eq_getElem _ _ hi]
    simp
  rw [search_step (by omega), own, hp, if_pos rfl]
  split_ifs
  · rfl
  · rw [search_short (by omega), len, List.drop_eq_nil_of_le (by omega)]

/-- A valid header in WAITING is taken for its flags (R23, R25). -/
theorem exec_waiting {s : State} {p : PortId} {c : RawCell} (hp : headerPasses c.header = true)
    (hl : (s.port p).link = .waiting) :
    exec (.ingressCell p c) s = .next (eventEnd s (
      if (IngressHeader.read c.header).aligned then
        s.updPort p fun P => (P.flagged (IngressHeader.read c.header)).raised s.classes
      else s.updPort p (Port.flagged (IngressHeader.read c.header)))) := by
  have raised := s.updPort_updPort p (Port.flagged (IngressHeader.read c.header)) (Port.raised s.classes)
  have arrives : s.cellArrives p c = eventEnd s (
      if (IngressHeader.read c.header).aligned then
        (s.updPort p (Port.flagged (IngressHeader.read c.header))).updPort p (Port.raised s.classes)
      else s.updPort p (Port.flagged (IngressHeader.read c.header))) := by
    unfold State.cellArrives
    rw [hl]
    dsimp only
    rw [if_pos hp]
    rfl
  rw [raised] at arrives
  exact congrArg Host.Outcome.next arrives

/-- Settles O16: both parts of the handshake write one port. -/
theorem handshakeBringsPortsUp : Obligations.HandshakeBringsPortsUp := by
  refine ⟨fun s p c hp hl => ⟨fun ha => ?_, fun ha => ?_⟩, fun s p c hp hl hb hk => ⟨fun hn => ?_, fun hn => ?_⟩⟩
  · rw [exec_waiting hp hl, if_neg (by rw [ha]; decide)]
    have still := eventEnd_updPort s p (Port.flagged (IngressHeader.read c.header)) (fun _ => rfl) (fun _ => rfl)
      (fun _ => rfl) fun _ => rfl
    rw [still]
    refine congrArg Host.Outcome.next (State.updPort_congr s p ?_)
    rw [← ha]
    rfl
  · rw [exec_waiting hp hl, if_pos ha]
    set f : Port → Port := fun P => (P.flagged (IngressHeader.read c.header)).raised s.classes
    have hg : (f (s.port p)).grants = (s.port p).grants := rfl
    have hb : (f (s.port p)).grantOutbox = (s.port p).grantOutbox := rfl
    obtain ⟨fs, m, n, port⟩ := eventEnd_alone_port hg hb
    obtain ⟨dids, queue, cells⟩ := eventEnd_alone_rest hg hb
    refine ⟨_, rfl, ?_, ?_, ?_, ?_, ?_, ?_, ?_, ?_, dids, queue, cells, fun q hq => eventEnd_alone_others hg hb hq⟩ <;>
      rw [port]
    · rfl
    · exact ha
    · rfl
    · rfl
    · rfl
    · rfl
    · rfl
    · rfl
  · rw [exec_acquire c hl, hb, hk, List.nil_append, search_cell c hp, if_neg (by omega), eventEnd_searched_more,
      State.searched_more]
    refine congrArg _ (State.updPort_congr s p ?_)
    rw [← hb, ← hk]
  · rw [exec_acquire c hl, hb, hk, List.nil_append, search_cell c hp, if_pos (by omega)]
    obtain ⟨t, ht, shows⟩ := eventEnd_aligned s p c.header
    exact ⟨t, by rw [ht], shows⟩

/-! ### Slips -/

/-- A port that is not UP and has no fault cause goes to ACQUIRING by itself (R25, R35). -/
theorem State.toAcquiring_down {s : State} {p : PortId} (why : DownCause) (hl : (s.port p).link ≠ .up)
    (hf : (s.port p).faultCause = false) : s.toAcquiring p why = s.updPort p Port.enterAcquiring := by
  have down : s.isUp p = false := Bool.eq_false_iff.2 fun h => hl ((s.isUp_iff p).1 h)
  obtain ⟨hu, -⟩ | ⟨-, left⟩ := s.leaveFor_cases p Port.enterAcquiring why
  · rw [down] at hu; cases hu
  · rw [State.toAcquiring, left, State.judgeFault_noCause] <;> rw [State.updPort_port_self]
    · rfl
    · exact hf

/-- Settles O18: a slip that takes no port out of UP writes its port alone, and of it no watched condition. -/
theorem slipsThatKeepTheState : Obligations.SlipsThatKeepTheState := by
  intro s p k
  show (_ → Host.Outcome.next (eventEnd s (s.slips p k)) = _) ∧ (_ → Host.Outcome.next (eventEnd s (s.slips p k)) = _) ∧
    (_ → Host.Outcome.next (eventEnd s (s.slips p k)) = _) ∧ (_ → _ → Host.Outcome.next (eventEnd s (s.slips p k)) = _) ∧
    (_ → _ → _ → Host.Outcome.next (eventEnd s (s.slips p k)) = _)
  refine ⟨fun hl => ?_, fun hl => ?_, fun hl => ?_, fun hl ha => ?_, fun hl ha hf => ?_⟩
  · have stays : s.slips p k = s := by unfold State.slips; rw [hl]
    rw [stays, eventEnd_self]
  · have recentred : s.slips p k = s.recentre p := by
      unfold State.slips
      rcases hl with hl | hl <;> rw [hl]
    rw [recentred]
    exact congrArg _ (eventEnd_alone_still rfl rfl rfl rfl)
  · rw [s.slips_acquiring k hl]
    exact congrArg _ (eventEnd_alone_still rfl rfl rfl rfl)
  · rw [s.slips_counted k hl, if_pos ha]
    exact congrArg _ (eventEnd_alone_still rfl rfl rfl rfl)
  · have hw : ((s.updPort p Port.slipped).port p).link = .waiting := by rw [State.updPort_port_self]; exact hl
    have down : ((s.updPort p Port.slipped).port p).link ≠ .up := by rw [hw]; decide
    have noCause : ((s.updPort p Port.slipped).port p).faultCause = false := by rw [State.updPort_port_self]; exact hf
    have conditions : (s.port p).slipped.enterAcquiring.conditions = (s.port p).conditions := by
      unfold Port.conditions
      rw [hl]
      rfl
    rw [s.slips_counted k (.inl hl), if_neg (by rw [ha]; decide), State.toAcquiring_down _ down noCause,
      State.updPort_updPort]
    have still : eventEnd s (s.updPort p fun P => P.slipped.enterAcquiring) =
        s.updPort p fun P => P.slipped.enterAcquiring := eventEnd_alone_still rfl rfl conditions rfl
    rw [still]
    refine congrArg Host.Outcome.next (State.updPort_congr s p ?_)
    unfold Port.enterAcquiring Port.cleared Port.slipped
    simp only [hl]
    rfl

end Sys2Proof.Machine
end

section
/-! PROOFS. The monitors of a port: the quality figure, the runs of identical bits and the blocks under them. -/

namespace Sys2Proof.Machine

/-! ### Fields of a port at the end of its event -/

/-- All of a port but traffic and what the notice unit writes. -/
def Port.plain (P : Port) : Port := { P.lasting with watchMatch := true, noticeFlag := false }

theorem eventEnd_shows {α : Type} {s t : State} {p : PortId} {Q : Port} (h : s.Turns p t)
    (hp : (t.port p).lasting = Q.lasting) (g : Port → α) (hg : ∀ P : Port, g P.plain = g P) :
    g ((eventEnd s t).port p) = g Q := by
  have judged (P : Port) (c : BitVec 5) : (P.judgeNotice c).plain = P.plain := by
    unfold Port.judgeNotice
    split_ifs <;> rfl
  have plain {P R : Port} (e : P.lasting = R.lasting) : P.plain = R.plain := by
    unfold Port.plain
    rw [e]
  rw [← hg, plain ((eventEnd_turns h).2.trans (Port.judgeNotice_lasting _ hp)), judged, hg]

/-- A port whose monitors were written and whose fault causes were judged, at the end of the event. -/
theorem eventEnd_judged {α : Type} {s : State} {p : PortId} {f : Port → Port}
    (h : (f (s.port p)).link ≠ .up → (s.port p).link ≠ .up ∧ (s.port p).Clears (f (s.port p)))
    (g : Port → α) (hg : ∀ P : Port, g P.plain = g P) :
    g ((eventEnd s ((s.updPort p f).judgeFault p)).port p) = g (f (s.port p)).judged := by
  obtain ⟨turned, hp⟩ := State.judgeFault_turns (s.updPort p f) p
  rw [State.updPort_port_self] at hp
  exact eventEnd_shows ((s.updPort_turns p h).trans turned) hp g hg

/-- The link state that the fault causes give (R35, R36). -/
theorem Port.judged_link (P : Port) : P.judged.link =
    match P.link with
    | .test => .test
    | .disabled => .disabled
    | .faulted => if P.faultCause then .faulted else .acquiring
    | l => if P.faultCause then .faulted else l := by
  unfold Port.judged
  cases hl : P.link <;> cases P.faultCause <;> first | exact hl | rfl

theorem Port.judged_faulted {P : Port} (hl : P.link ≠ .disabled) (hf : P.faultCause = true) :
    P.judged.link = if P.link = .test then .test else .faulted := by
  rw [Port.judged_link, hf]
  cases hk : P.link with
  | disabled => exact absurd hk hl
  | _ => rfl

theorem Port.judged_lastDown (P : Port) :
    P.judged.lastDown = if P.link = .up ∧ P.faultCause = true then .fault else P.lastDown := by
  unfold Port.judged Port.left
  cases P.link <;> cases P.faultCause <;> rfl

theorem Port.judged_kept (P : Port) :
    P.judged.stuck = P.stuck ∧ P.judged.quality = P.quality ∧ P.judged.settings = P.settings := by
  unfold Port.judged
  cases P.link <;> cases P.faultCause <;> exact ⟨rfl, rfl, rfl⟩

/-! ### The quality monitor -/

theorem alarmAfter_low {fig a d : Nat} (before : Bool) (h : fig < a) : alarmAfter before fig a d = true := if_pos h

theorem alarmAfter_between {fig a d : Nat} (before : Bool) (ha : a ≤ fig) (hd : fig < d) :
    alarmAfter before fig a d = before := by
  unfold alarmAfter
  rw [if_neg (by omega), if_neg (by omega)]

theorem alarmAfter_high {fig a d : Nat} (before : Bool) (ha : a ≤ fig) (hd : d ≤ fig) :
    alarmAfter before fig a d = false := by
  unfold alarmAfter
  rw [if_neg (by omega), if_pos (by omega)]

/-- Settles O22: the figure is taken, and the fault causes are judged. -/
theorem qualityCompletions : Obligations.QualityCompletions := by
  rintro s p fig P rfl
  refine ⟨rfl, fun hl => ?_, fun hl => ?_⟩
  · show Host.Outcome.next (eventEnd s (s.qualityCompletes p fig)) = _
    rw [State.qualityCompletes, if_pos hl, eventEnd_self]
  · have shows {α : Type} (g : Port → α) (hg : ∀ P : Port, g P.plain = g P) :=
      eventEnd_judged (s := s) (p := p) (f := Port.takeFigure fig) (fun h => ⟨h, id, id, id⟩) g hg
    obtain ⟨stuck, quality, settings⟩ := ((s.port p).takeFigure fig).judged_kept
    refine ⟨eventEnd s (s.qualityCompletes p fig), alarmAfter (s.port p).quality.alarm fig.toNat (s.port p).settings.qualA
      (s.port p).settings.qualD, rfl, ?_, alarmAfter_low _, alarmAfter_between _, alarmAfter_high _, ?_, ?_, ?_, ?_⟩ <;>
      rw [State.qualityCompletes, if_neg hl]
    · exact (shows Port.quality fun _ => rfl).trans quality
    · exact (shows Port.stuck fun _ => rfl).trans stuck
    · exact (shows Port.settings fun _ => rfl).trans settings
    · exact (shows Port.lastDown fun _ => rfl).trans (Port.judged_lastDown _)
    · exact (shows Port.link fun _ => rfl).trans (Port.judged_link _)

/-! ### One bit at the stuck-line monitor -/

namespace StuckMonitor

/-- The run of bits `b` that the monitor has seen last. -/
def streak (m : StuckMonitor) (b : Bool) : Nat := if m.lastBit = some b then m.runLength else 0

/-- A bit counted, with its run and its transition, before the block is looked at (R30, R31). -/
def counted (n : Nat) (m : StuckMonitor) (b : Bool) : StuckMonitor :=
  let reached := decide (m.streak b + 1 = (n + 1) * 256) || (!m.asserted && decide ((n + 1) * 256 ≤ m.streak b + 1))
  { m with runLength := m.streak b + 1, lastBit := some b, asserted := m.asserted || reached,
           cleanBlocks := if reached then 0 else m.cleanBlocks, blockBits := m.blockBits + 1,
           blockTransition := m.blockTransition || decide (m.lastBit = some (!b)) }

variable (n k : Nat) (m : StuckMonitor) (b : Bool)

theorem takeBit_eq : m.takeBit n k b =
    if 1024 ≤ m.blockBits + 1 then (m.counted n b).endBlock k else m.counted n b := by
  have run : (if m.lastBit = some b then m.runLength + 1 else 1) = m.streak b + 1 := by
    unfold streak
    split_ifs <;> rfl
  unfold takeBit
  rw [run]
  rfl

theorem takeBit_lastBit : (m.takeBit n k b).lastBit = some b := by
  rw [takeBit_eq]
  split_ifs <;> rfl

theorem takeBit_runLength : (m.takeBit n k b).runLength = m.streak b + 1 := by
  rw [takeBit_eq]
  split_ifs <;> rfl

theorem takeBit_streak : (m.takeBit n k b).streak b = m.streak b + 1 := by
  rw [streak, if_pos (takeBit_lastBit n k m b), takeBit_runLength]

/-- The blocks are counted whatever the runs are (R31). -/
theorem takeBit_block (h : m.blockBits < 1024) : (m.takeBit n k b).blockBits = (m.blockBits + 1) % 1024 ∧
    (m.takeBit n k b).blockTransition = (decide (m.blockBits + 1 < 1024) &&
      (m.blockTransition || decide (m.lastBit = some (!b)))) := by
  rw [takeBit_eq]
  split_ifs with he
  · have full : m.blockBits + 1 = 1024 := by omega
    rw [full]
    exact ⟨rfl, rfl⟩
  · rw [decide_eq_true (by omega), Bool.true_and, Nat.mod_eq_of_lt (by omega)]
    exact ⟨rfl, rfl⟩

/-- A count of clean blocks that starts at the end of the block does not clear the monitor (R31). -/
theorem endBlock_asserted (h : m.asserted = true → m.cleanBlocks = 0) : (m.endBlock k).asserted = m.asserted := by
  unfold endBlock
  cases ha : m.asserted
  · rfl
  · have short : ¬ (k + 1) * 4 ≤ 0 + 1 := by omega
    rw [h ha]
    cases m.blockTransition
    · rfl
    · simp [short]

/-- At a clear monitor a bit counts from the threshold on (R30). -/
theorem counted_clear (ha : m.asserted = false) : m.counted n b =
    { m with runLength := m.streak b + 1, lastBit := some b, asserted := decide ((n + 1) * 256 ≤ m.streak b + 1),
             cleanBlocks := if (n + 1) * 256 ≤ m.streak b + 1 then 0 else m.cleanBlocks, blockBits := m.blockBits + 1,
             blockTransition := m.blockTransition || decide (m.lastBit = some (!b)) } := by
  have reached : (decide (m.streak b + 1 = (n + 1) * 256) || decide ((n + 1) * 256 ≤ m.streak b + 1)) =
      decide ((n + 1) * 256 ≤ m.streak b + 1) := by
    rw [← Bool.decide_or]
    refine decide_eq_decide.2 ?_
    omega
  unfold counted
  simp only [ha, Bool.not_false, Bool.true_and, reached, Bool.false_or, decide_eq_true_eq]

/-- At an asserted monitor only the bit that brings the run to the threshold does anything (R30). -/
theorem counted_asserted (ha : m.asserted = true) : m.counted n b =
    { m with runLength := m.streak b + 1, lastBit := some b,
             cleanBlocks := if m.streak b + 1 = (n + 1) * 256 then 0 else m.cleanBlocks, blockBits := m.blockBits + 1,
             blockTransition := m.blockTransition || decide (m.lastBit = some (!b)) } := by
  unfold counted
  simp only [ha, Bool.not_true, Bool.false_and, Bool.or_false, Bool.true_or, decide_eq_true_eq]

theorem takeBit_within (hb : m.blockBits < 1023) : m.takeBit n k b = m.counted n b := by
  rw [takeBit_eq, if_neg (by omega)]

theorem takeBit_ends (hb : m.blockBits = 1023) : m.takeBit n k b = (m.counted n b).endBlock k := by
  rw [takeBit_eq, if_pos (by omega)]

/-- From clear, the monitor is asserted exactly by a run at the threshold (R30). -/
theorem takeBit_asserted (ha : m.asserted = false) :
    (m.takeBit n k b).asserted = decide ((n + 1) * 256 ≤ m.streak b + 1) := by
  rw [takeBit_eq, m.counted_clear n b ha]
  split_ifs with he h
  · exact endBlock_asserted k _ fun _ => rfl
  · exact endBlock_asserted k _ fun hd => absurd (of_decide_eq_true hd) h
  · rfl
  · rfl

/-- The clean-block count starts at 0 with an assertion, where no block ends at that bit (R30). -/
theorem takeBit_starts (ha : m.asserted = false) (hr : (n + 1) * 256 ≤ m.streak b + 1)
    (hb : (m.takeBit n k b).blockBits ≠ 0) : (m.takeBit n k b).cleanBlocks = 0 := by
  rw [takeBit_eq] at hb ⊢
  split_ifs at hb ⊢ with he
  · exact absurd rfl hb
  · rw [m.counted_clear n b ha, if_pos hr]

theorem takeBit_clean (ha : m.asserted = false) (hr : m.streak b + 1 < (n + 1) * 256) (hc : m.cleanBlocks = 0) :
    (m.takeBit n k b).cleanBlocks = 0 := by
  have below : ¬ (n + 1) * 256 ≤ m.streak b + 1 := by omega
  rw [takeBit_eq, m.counted_clear n b ha, if_neg below]
  split_ifs
  · simp [endBlock, below]
  · exact hc

/-! ### A run of identical bits -/

/-- The monitor after `j` bits `b`. -/
def bits (j : Nat) : StuckMonitor := (fun m => m.takeBit n k b)^[j] m

theorem bits_succ (j : Nat) : m.bits n k b (j + 1) = (m.bits n k b j).takeBit n k b := Function.iterate_succ_apply' _ _ _

theorem bits_streak (j : Nat) : (m.bits n k b j).streak b = m.streak b + j := by
  induction j with
  | zero => rfl
  | succ j ih => rw [bits_succ, takeBit_streak, ih, Nat.add_assoc]

/-- Blocks under a run: only its first bit can be a transition (R31). -/
theorem bits_block (j : Nat) (h : m.blockBits < 1024) :
    (m.bits n k b (j + 1)).blockBits = (m.blockBits + (j + 1)) % 1024 ∧
    (m.bits n k b (j + 1)).blockTransition = (decide (m.blockBits + (j + 1) < 1024) &&
      (m.blockTransition || decide (m.lastBit = some (!b)))) := by
  induction j with
  | zero => exact takeBit_block n k m b h
  | succ j ih =>
    obtain ⟨count, transition⟩ := ih
    have last : (m.bits n k b (j + 1)).lastBit = some b := by rw [bits_succ, takeBit_lastBit]
    have same : decide ((m.bits n k b (j + 1)).lastBit = some (!b)) = false := by rw [last]; cases b <;> rfl
    obtain ⟨next, turned⟩ := takeBit_block n k (m.bits n k b (j + 1)) b (by rw [count]; exact Nat.mod_lt _ (by decide))
    rw [bits_succ]
    refine ⟨by rw [next, count]; omega, ?_⟩
    rw [turned, same, count, transition, Bool.or_false]
    by_cases he : m.blockBits + (j + 1 + 1) < 1024
    · rw [Nat.mod_eq_of_lt (by omega), decide_eq_true he, decide_eq_true (by omega), decide_eq_true (by omega)]
      simp
    · rw [decide_eq_false he, Bool.false_and]
      by_cases hj : m.blockBits + (j + 1) < 1024
      · have full : m.blockBits + (j + 1) = 1023 := by omega
        rw [full]
        rfl
      · rw [decide_eq_false hj, Bool.false_and, Bool.and_false]

/-- A run below the threshold asserts nothing (R30). -/
theorem bits_below (ha : m.asserted = false) (j : Nat)
    (hj : j = 0 ∨ m.streak b + j < (n + 1) * 256) :
    (m.bits n k b j).asserted = false ∧ (m.cleanBlocks = 0 → (m.bits n k b j).cleanBlocks = 0) := by
  induction j with
  | zero => exact ⟨ha, id⟩
  | succ j ih =>
    obtain ⟨clear, clean⟩ := ih (by omega)
    have below : (m.bits n k b j).streak b + 1 < (n + 1) * 256 := by rw [bits_streak]; omega
    rw [bits_succ]
    exact ⟨by rw [takeBit_asserted n k _ b clear, decide_eq_false (by omega)],
      fun hc => takeBit_clean n k _ b clear below (clean hc)⟩

end StuckMonitor

/-! ### Received bits at the monitor of a port -/

theorem State.updPort_self (s : State) (p : PortId) {f : Port → Port} (h : f (s.port p) = s.port p) :
    s.updPort p f = s := by
  unfold State.updPort
  rw [show f s.ports[p] = s.ports[p] from h]
  simp

/-- The port with a bit taken by its monitor (R30). -/
def Port.stuckBit (b : Bool) (P : Port) : Port :=
  { P with stuck := P.stuck.takeBit P.settings.stuckN P.settings.stuckK b }

/-- A bit that neither asserts nor clears the monitor changes the monitor alone. -/
theorem State.takeStuckBit_still {s : State} {p : PortId} {b : Bool} (hl : (s.port p).link ≠ .disabled)
    (h : ((s.port p).stuckBit b).stuck.asserted = (s.port p).stuck.asserted) (bs : List Bool) :
    State.takeStuckBits p (b :: bs) s = State.takeStuckBits p bs (s.updPort p (Port.stuckBit b)) := by
  have at' := State.updPort_port_self s p (Port.stuckBit b)
  conv_lhs => unfold State.takeStuckBits
  rw [if_neg hl]
  change State.takeStuckBits p bs (if ((s.updPort p (Port.stuckBit b)).port p).stuck.asserted = _ then _ else _) = _
  rw [at', if_pos h]
  rfl

/-- At a bit that asserts or clears the monitor the fault causes are judged (R35, R36). -/
theorem State.takeStuckBit_turns {s : State} {p : PortId} {b : Bool} (hl : (s.port p).link ≠ .disabled)
    (h : ((s.port p).stuckBit b).stuck.asserted ≠ (s.port p).stuck.asserted) :
    State.takeStuckBits p [b] s = eventEnd s ((s.updPort p (Port.stuckBit b)).judgeFault p) := by
  have at' := State.updPort_port_self s p (Port.stuckBit b)
  unfold State.takeStuckBits
  rw [if_neg hl]
  change State.takeStuckBits p [] (if ((s.updPort p (Port.stuckBit b)).port p).stuck.asserted = _ then _ else _) = _
  rw [at', if_neg h]
  rfl

/-- The port after `j` bits `b` below the threshold. -/
def Port.stuckBits (b : Bool) (j : Nat) (P : Port) : Port :=
  { P with stuck := P.stuck.bits P.settings.stuckN P.settings.stuckK b j }

/-- Bits of a run below the threshold change the monitor alone. -/
theorem State.takeStuckBits_below {s : State} {p : PortId} {b : Bool} (hl : (s.port p).link ≠ .disabled)
    (ha : (s.port p).stuck.asserted = false) (j : Nat) (bs : List Bool)
    (hj : j = 0 ∨ (s.port p).stuck.streak b + j < ((s.port p).settings.stuckN + 1) * 256) :
    State.takeStuckBits p (List.replicate j b ++ bs) s = State.takeStuckBits p bs (s.updPort p (Port.stuckBits b j)) := by
  induction j generalizing s with
  | zero => exact congrArg _ (s.updPort_self p rfl).symm
  | succ j ih =>
    have clear : ((s.port p).stuckBit b).stuck.asserted = false := by
      rw [Port.stuckBit, StuckMonitor.takeBit_asserted _ _ _ _ ha, decide_eq_false (by omega)]
    have port := State.updPort_port_self s p (Port.stuckBit b)
    rw [List.replicate_succ, List.cons_append, State.takeStuckBit_still hl (clear.trans ha.symm), ih,
      State.updPort_updPort] <;> try rw [port]
    · rfl
    · exact hl
    · exact clear
    · rw [Port.stuckBit, StuckMonitor.takeBit_streak]
      dsimp only
      omega

/-- Settles O20: a run is so many bits below the threshold, and the bit that reaches it. -/
theorem stuckLineAsserts : Obligations.StuckLineAsserts := by
  rintro s p v n run threshold P m rfl rfl hn rfl hrun
  obtain ⟨j, rfl⟩ : ∃ j, n = j + 1 := ⟨n - 1, by omega⟩
  have streak : run = (s.port p).stuck.streak v + (j + 1) := hrun
  refine ⟨fun hl => ?_, fun hl ha hr => ?_, fun hl ha hr => ?_⟩
  · show Host.Outcome.next (State.takeStuckBits p (v :: List.replicate j v) s) = _
    unfold State.takeStuckBits
    rw [if_pos hl]
  · have before : j = 0 ∨ (s.port p).stuck.streak v + j < ((s.port p).settings.stuckN + 1) * 256 := by omega
    obtain ⟨clear, -⟩ := StuckMonitor.bits_below (s.port p).settings.stuckN (s.port p).settings.stuckK _ v ha j before
    set u := s.updPort p (Port.stuckBits v j) with hu
    have port : u.port p = (s.port p).stuckBits v j := State.updPort_port_self s p _
    have next : ((u.port p).stuckBit v).stuck = (s.port p).stuck.bits (s.port p).settings.stuckN
        (s.port p).settings.stuckK v (j + 1) := by
      rw [port, StuckMonitor.bits_succ]
      rfl
    have reached : ((s.port p).settings.stuckN + 1) * 256 ≤
        ((s.port p).stuck.bits (s.port p).settings.stuckN (s.port p).settings.stuckK v j).streak v + 1 := by
      rw [StuckMonitor.bits_streak]
      omega
    have asserted : ((u.port p).stuckBit v).stuck.asserted = true := by
      rw [next, StuckMonitor.bits_succ, StuckMonitor.takeBit_asserted _ _ _ _ clear, decide_eq_true reached]
    have cause : ((u.port p).stuckBit v).faultCause = true := by rw [Port.faultCause, asserted, Bool.true_or]
    have run : State.takeStuckBits p (List.replicate (j + 1) v) s =
        eventEnd u ((u.updPort p (Port.stuckBit v)).judgeFault p) := by
      rw [List.replicate_succ', State.takeStuckBits_below hl ha j [v] before, ← hu]
      refine State.takeStuckBit_turns (by rw [port]; exact hl) ?_
      rw [asserted, port]
      exact fun h => absurd (h.trans clear) (by decide)
    have shows {α : Type} (g : Port → α) (hg : ∀ P : Port, g P.plain = g P) :=
      eventEnd_judged (s := u) (p := p) (f := Port.stuckBit v) (fun h => ⟨h, id, id, id⟩) g hg
    obtain ⟨stuck, quality, settings⟩ := ((u.port p).stuckBit v).judged_kept
    have monitor := ((shows Port.stuck fun _ => rfl).trans stuck).trans next
    refine ⟨_, congrArg Host.Outcome.next run, ?_, ?_, fun hb => ?_, fun hb hne => ?_, ?_, ?_, ?_, ?_, ?_⟩
    · rw [shows Port.stuck fun _ => rfl, stuck, asserted]
    · rw [monitor, StuckMonitor.bits_succ, StuckMonitor.takeBit_lastBit]
    · rw [monitor]
      exact StuckMonitor.bits_block _ _ _ v j hb
    · obtain ⟨count, -⟩ := StuckMonitor.bits_block (s.port p).settings.stuckN (s.port p).settings.stuckK _ v j hb
      rw [monitor]
      rw [← count, StuckMonitor.bits_succ] at hne
      rw [StuckMonitor.bits_succ]
      exact StuckMonitor.takeBit_starts _ _ _ v clear reached hne
    · rw [monitor, StuckMonitor.bits_succ, StuckMonitor.takeBit_runLength, StuckMonitor.bits_streak]
      omega
    · rw [shows Port.link fun _ => rfl, Port.judged_faulted (by rw [port]; exact hl) cause, port]
      rfl
    · rw [shows Port.lastDown fun _ => rfl, Port.judged_lastDown, cause, port]
      simp only [and_true]
      rfl
    · rw [shows Port.settings fun _ => rfl, settings, port]
      rfl
    · rw [shows Port.quality fun _ => rfl, quality, port]
      rfl
  · obtain ⟨clear, clean⟩ := StuckMonitor.bits_below (s.port p).settings.stuckN (s.port p).settings.stuckK _ v ha (j + 1)
      (.inr (by omega))
    have taken := State.takeStuckBits_below (b := v) hl ha (j + 1) [] (.inr (by omega))
    rw [List.append_nil] at taken
    refine ⟨_, congrArg Host.Outcome.next (taken.trans (State.updPort_congr s p rfl)), clear, ?_, ?_, clean,
      StuckMonitor.bits_block _ _ _ v j⟩
    · rw [StuckMonitor.bits_succ, StuckMonitor.takeBit_runLength, StuckMonitor.bits_streak]
      omega
    · rw [StuckMonitor.bits_succ, StuckMonitor.takeBit_lastBit]

/-! ### While the monitor is asserted -/

theorem StuckMonitor.streak_succ (m : StuckMonitor) (b : Bool) :
    m.streak b + 1 = if m.lastBit = some b then m.runLength + 1 else 1 := by
  unfold streak
  split_ifs <;> rfl

/-- Within a block an asserted monitor stays asserted, and nothing but the monitor changes. -/
theorem State.takeStuckBits_within {s : State} {p : PortId} (b : Bool) (hl : (s.port p).link ≠ .disabled)
    (ha : (s.port p).stuck.asserted = true) (hb : (s.port p).stuck.blockBits < 1023) :
    s.takeStuckBits p [b] =
      s.updPort p fun P => { P with stuck := (s.port p).stuck.counted (s.port p).settings.stuckN b } := by
  have counted : ((s.port p).stuckBit b).stuck = (s.port p).stuck.counted (s.port p).settings.stuckN b :=
    StuckMonitor.takeBit_within _ _ _ b hb
  rw [State.takeStuckBit_still hl (by rw [counted, StuckMonitor.counted_asserted _ _ b ha])]
  refine State.updPort_congr s p ?_
  rw [← counted]
  rfl

/-- One bit, whether the assertion changes with it or not. -/
theorem State.takeStuckBit_shows {s : State} {p : PortId} (b : Bool) (hl : (s.port p).link ≠ .disabled) :
    ((s.takeStuckBits p [b]).port p).stuck = ((s.port p).stuckBit b).stuck ∧
    ((s.takeStuckBits p [b]).port p).link =
      if ((s.port p).stuckBit b).stuck.asserted = (s.port p).stuck.asserted then (s.port p).link
      else ((s.port p).stuckBit b).judged.link := by
  have shows {α : Type} (g : Port → α) (hg : ∀ P : Port, g P.plain = g P) :=
    eventEnd_judged (s := s) (p := p) (f := Port.stuckBit b) (fun h => ⟨h, id, id, id⟩) g hg
  obtain ⟨stuck, -, -⟩ := ((s.port p).stuckBit b).judged_kept
  split_ifs with h
  · have still : s.takeStuckBits p [b] = s.updPort p (Port.stuckBit b) := State.takeStuckBit_still hl h []
    rw [still, State.updPort_port_self]
    exact ⟨rfl, rfl⟩
  · rw [State.takeStuckBit_turns hl h]
    exact ⟨(shows Port.stuck fun _ => rfl).trans stuck, shows Port.link fun _ => rfl⟩

/-- The monitor with the last bit of a block counted, where no run reaches the threshold at it. -/
def StuckMonitor.filled (m : StuckMonitor) (b : Bool) : StuckMonitor :=
  { m with runLength := m.streak b + 1, lastBit := some b, blockBits := 1024,
           blockTransition := m.blockTransition || decide (m.lastBit = some (!b)) }

/-- The last bit of a block at an asserted monitor, where no run reaches the threshold at it (R31). -/
theorem StuckMonitor.takeBit_blockEnd (n k : Nat) (m : StuckMonitor) (b : Bool) (ha : m.asserted = true)
    (hb : m.blockBits = 1023) (hr : m.lastBit = some b → m.runLength + 1 ≠ (n + 1) * 256) :
    m.takeBit n k b = (m.filled b).endBlock k := by
  have below : m.streak b + 1 ≠ (n + 1) * 256 := by
    rw [StuckMonitor.streak_succ]
    split_ifs with h
    · exact hr h
    · omega
  rw [takeBit_ends _ _ _ _ hb, counted_asserted _ _ b ha, if_neg below, hb]
  rfl

/-- A clean block below the target counts, and the one that meets it clears the monitor (R31). -/
theorem StuckMonitor.endBlock_counts {k : Nat} {m : StuckMonitor} (ha : m.asserted = true)
    (ht : m.blockTransition = true) (h : m.cleanBlocks + 1 < (k + 1) * 4) :
    m.endBlock k = { m with cleanBlocks := m.cleanBlocks + 1, blockBits := 0, blockTransition := false } := by
  have short : ¬ (k + 1) * 4 ≤ m.cleanBlocks + 1 := by omega
  unfold endBlock
  rw [ha, ht]
  simp [short]

theorem StuckMonitor.endBlock_clears {k : Nat} {m : StuckMonitor} (ha : m.asserted = true)
    (ht : m.blockTransition = true) (h : (k + 1) * 4 ≤ m.cleanBlocks + 1) :
    m.endBlock k = { m with asserted := false, cleanBlocks := 0, blockBits := 0, blockTransition := false } := by
  unfold endBlock
  rw [ha, ht]
  simp [h]

/-- A block without a transition sets the count back (R31). -/
theorem StuckMonitor.endBlock_stuck {k : Nat} {m : StuckMonitor} (ht : m.blockTransition = false) :
    m.endBlock k = { m with cleanBlocks := 0, blockBits := 0, blockTransition := false } := by
  unfold endBlock
  rw [ht]
  simp

/-- Settles O21: a bit within a block is counted, and the last one ends the block. -/
theorem stuckBlockEnds : Obligations.StuckBlockEnds := by
  refine ⟨?_, ?_, ?_⟩
  · rintro s p b m rfl hl ha hlast hb hr
    have streak := (s.port p).stuck.streak_succ b
    rw [if_pos hlast] at streak
    refine congrArg Host.Outcome.next ((State.takeStuckBits_within b hl ha hb).trans (State.updPort_congr s p ?_))
    rw [StuckMonitor.counted_asserted _ _ b ha, streak, if_pos hr, hlast]
    cases b <;> simp
  · rintro s p b m run c rfl hl ha hb hrun hr hc
    have taken : exec c s = .next (s.takeStuckBits p [b]) := by
      simp only [List.mem_cons, List.not_mem_nil, or_false] at hc
      obtain rfl | rfl := hc <;> rfl
    rw [taken]
    refine congrArg Host.Outcome.next ((State.takeStuckBits_within b hl ha hb).trans (State.updPort_congr s p ?_))
    rw [StuckMonitor.counted_asserted _ _ b ha, StuckMonitor.streak_succ, ← hrun, if_neg hr]
  · rintro s p b P m rfl rfl hl ha hb hr
    have ends := StuckMonitor.takeBit_blockEnd _ (s.port p).settings.stuckK _ b ha hb hr
    obtain ⟨stuck, link⟩ := State.takeStuckBit_shows (s := s) (p := p) b hl
    rw [ha] at link
    change ((s.port p).stuckBit b).stuck = _ at ends
    rw [ends] at stuck link
    have turned (ht : (s.port p).stuck.blockTransition = true ∨ (s.port p).stuck.lastBit = some (!b)) :
        ((s.port p).stuck.filled b).blockTransition = true := by simpa [StuckMonitor.filled] using ht
    refine ⟨s.takeStuckBits p [b], rfl, ?_, ?_, ?_, ?_, fun ht => ⟨fun hk => ?_, fun hk => ?_⟩, fun ht hs => ?_⟩
    · rw [stuck]; rfl
    · rw [stuck]; rfl
    · rw [stuck]; rfl
    · rw [stuck, ← StuckMonitor.streak_succ]; rfl
    · rw [StuckMonitor.endBlock_counts (m := (s.port p).stuck.filled b) ha (turned ht) hk] at stuck link
      rw [stuck, link]
      exact ⟨ha, rfl, if_pos ha⟩
    · rw [StuckMonitor.endBlock_clears (m := (s.port p).stuck.filled b) ha (turned ht) hk] at stuck link ends
      rw [stuck, link]
      refine ⟨rfl, rfl, fun hf => ?_⟩
      have cause : ((s.port p).stuckBit b).faultCause = ((s.port p).quality.alarm && (s.port p).settings.qualityFault) := by
        rw [Port.faultCause, ends]
        exact Bool.false_or _
      have faulted : ((s.port p).stuckBit b).link = .faulted := hf
      rw [if_neg Bool.false_ne_true, Port.judged_link, cause, faulted]
    · have other : decide ((s.port p).stuck.lastBit = some (!b)) = false := by rw [hs]; cases b <;> rfl
      have dirty : ((s.port p).stuck.filled b).blockTransition = false := by
        show ((s.port p).stuck.blockTransition || _) = false
        rw [ht, other, Bool.or_false]
      rw [StuckMonitor.endBlock_stuck dirty] at stuck link
      rw [stuck, link]
      exact ⟨ha, rfl, if_pos ha⟩

end Sys2Proof.Machine
end

section
/-! PROOFS. What a port that is not in UP sends in a slot, and the generators bit by bit. -/

namespace Sys2Proof.Machine

/-! ### The generator -/

namespace PatternUnit

/-- The unit after `n` generator bits. -/
def generated (n : Nat) (u : PatternUnit) : PatternUnit := (fun v => v.genBit.2)^[n] u

theorem generated_succ (n : Nat) (u : PatternUnit) : u.generated (n + 1) = (u.generated n).genBit.2 :=
  Function.iterate_succ_apply' _ _ _

theorem genBits_generated (n : Nat) (u : PatternUnit) : (genBits n u).2 = u.generated n := by
  induction n generalizing u with
  | zero => rfl
  | succ n ih => exact ih u.genBit.2

theorem genBits_length (n : Nat) (u : PatternUnit) : (genBits n u).1.length = n := by
  induction n generalizing u with
  | zero => rfl
  | succ n ih => exact congrArg (· + 1) (ih u.genBit.2)

/-- Each bit is that of the unit the bits before it leave. -/
theorem genBits_get {n i : Nat} (h : i < n) (u : PatternUnit) :
    (genBits n u).1[i]? = some (u.generated i).genBit.1 := by
  induction n generalizing u i with
  | zero => omega
  | succ n ih =>
    cases i with
    | zero => rfl
    | succ i => exact ih (by omega) u.genBit.2

/-- The generator moves its register and its position alone (R184). -/
theorem generated_eq (n : Nat) (u : PatternUnit) : u.generated (n + 1) =
    { u with genReg := (u.generated (n + 1)).genReg, genPos := (u.genPos + (n + 1)) % 64 } := by
  induction n with
  | zero => rfl
  | succ n ih =>
    rw [generated_succ (n + 1), ih]
    simp only [genBit, mk.injEq, true_and, and_true]
    omega

theorem generated_settings (n : Nat) (u : PatternUnit) : (u.generated n).settings = u.settings := by
  cases n with
  | zero => rfl
  | succ n => rw [generated_eq]

theorem generated_genPos (n : Nat) (u : PatternUnit) (h : u.genPos < 64) :
    (u.generated n).genPos = (u.genPos + n) % 64 := by
  cases n with
  | zero => exact (Nat.mod_eq_of_lt h).symm
  | succ n => rw [generated_eq]

end PatternUnit

theorem shiftIn_zero (reg : BitVec 31) (b : Bool) : (shiftIn reg b).getLsbD 0 = b := by
  simp [shiftIn]

theorem shiftIn_succ (reg : BitVec 31) (b : Bool) {i : Nat} (h : i < 30) :
    (shiftIn reg b).getLsbD (i + 1) = reg.getLsbD i := by
  have short : i + 1 < 31 := by omega
  simp [shiftIn, short, BitVec.getLsbD_eq_getElem, show i < 31 by omega]

/-- A shift-register pattern takes its next bit from two positions of the register (R184). -/
theorem Pattern.nextBit_register {k : Pattern} {back₁ back₂ : Nat}
    (h : (k, back₁, back₂) ∈ [(Pattern.p7, 6, 7), (.p23, 18, 23), (.p31, 28, 31)]) (user : BitVec 64)
    (reg : BitVec 31) (pos : Nat) :
    k.nextBit user reg pos = xor (reg.getLsbD (back₁ - 1)) (reg.getLsbD (back₂ - 1)) := by
  simp only [List.mem_cons, Prod.mk.injEq, List.not_mem_nil, or_false] at h
  obtain ⟨rfl, rfl, rfl⟩ | ⟨rfl, rfl, rfl⟩ | ⟨rfl, rfl, rfl⟩ := h <;> rfl

/-- The register holds the last 31 raw bits, the latest one lowest. -/
theorem PatternUnit.generated_register {u : PatternUnit} {raw : Nat → Bool} {n : Nat}
    (hr : ∀ i, i < 31 → raw i = u.genReg.getLsbD (30 - i))
    (hb : ∀ i, i < n → (u.generated i).genBit.1 = xor (raw (i + 31)) u.settings.genInvert) {j : Nat} (hj : j ≤ n) :
    ∀ i, i < 31 → (u.generated j).genReg.getLsbD i = raw (j + 30 - i) := by
  induction j with
  | zero =>
    intro i hi
    have at' := hr (30 - i) (by omega)
    rw [show 30 - (30 - i) = i by omega] at at'
    rw [Nat.zero_add]
    exact at'.symm
  | succ j ih =>
    intro i hi
    have bit := hb j (by omega)
    rw [generated_succ]
    cases i with
    | zero =>
      rw [genBit, generated_settings] at bit
      rw [genBit, shiftIn_zero, generated_settings]
      exact Bool.xor_left_inj.1 bit
    | succ i =>
      rw [genBit, shiftIn_succ _ _ (by omega), ih (by omega) i (by omega)]
      congr 1
      omega

/-- The unit after the bits of a slot. -/
theorem PatternUnit.genBits_unit_eq {n : Nat} (hn : 0 < n) (u : PatternUnit) : (genBits n u).2 =
    { u with genReg := (u.generated n).genReg, genPos := (u.genPos + n) % 64 } := by
  obtain ⟨m, rfl⟩ : ∃ m, n = m + 1 := ⟨n - 1, by omega⟩
  rw [genBits_generated, generated_eq]

/-- A test that has a generator sends its next bits (R20, R184). -/
theorem State.testSlot_generates {s : State} {p : PortId} (h : (s.port p).test.settings.genPattern ≠ .off) :
    s.testSlot p = s.updPort p fun P => { P with
      sent := .pattern (PatternUnit.genBits Config.slotBits (s.port p).test.begin).1,
      test := (PatternUnit.genBits Config.slotBits (s.port p).test.begin).2 } := by
  refine State.updPort_congr s p ?_
  rw [if_neg h]

/-- Settles O23: the slot writes its port alone, and in TEST its bits are those of the generator. -/
theorem slotsOutsideUp : Obligations.SlotsOutsideUp := by
  rintro s p P fill rfl hfill
  have idle a : s.idleFill a = fill a := (hfill a).symm
  refine ⟨fun hl => ?_, fun hl => ?_, fun hl => ?_, fun hl => ?_, fun hl hg => ?_, fun hl hg => ?_⟩
  · have opened : s.slotOpens p = s.send p .quiet := by unfold State.slotOpens; rw [hl]
    exact congrArg Host.Outcome.next opened
  · have opened : s.slotOpens p = s.send p (s.idleFill false) := by unfold State.slotOpens; rw [hl]
    rw [idle] at opened
    exact congrArg Host.Outcome.next opened
  · have opened : s.slotOpens p = s.send p (s.idleFill true) := by unfold State.slotOpens; rw [hl]
    rw [idle] at opened
    exact congrArg Host.Outcome.next opened
  · have opened : s.slotOpens p = s.send p (if (s.port p).settings.squelch then .quiet else s.idleFill false) := by
      unfold State.slotOpens; rw [hl]
    rw [idle] at opened
    exact congrArg Host.Outcome.next opened
  · have opened : s.slotOpens p = s.testSlot p := by unfold State.slotOpens; rw [hl]
    refine congrArg Host.Outcome.next (opened.trans (State.updPort_congr s p ?_))
    rw [if_pos hg]
    rfl
  · have opened : s.slotOpens p = s.testSlot p := by unfold State.slotOpens; rw [hl]
    have slot : Config.slotBits = 1152 := rfl
    generalize hv : (s.port p).test.begin = v
    have settings : v.settings = (s.port p).test.settings := by rw [← hv]; rfl
    have begins : (PatternUnit.genBits 1152 v).2 = { (s.port p).test with
        running := true, genReg := (v.generated 1152).genReg, genPos := ((s.port p).test.genPos + 1152) % 64 } := by
      rw [PatternUnit.genBits_unit_eq (by decide), ← hv]
      rfl
    have generates := State.testSlot_generates hg
    rw [hv, slot, begins] at generates
    rw [← settings]
    refine ⟨_, _, congrArg Host.Outcome.next (opened.trans generates),
      PatternUnit.genBits_length _ _, fun hu hpos i hi => ?_, fun back₁ back₂ hk raw hraw hreg => ?_⟩
    · have position : v.genPos = (s.port p).test.genPos := by rw [← hv]; rfl
      rw [PatternUnit.genBits_get hi, PatternUnit.genBit, PatternUnit.generated_settings,
        PatternUnit.generated_genPos _ _ (by rw [position]; exact hpos), hu, position]
      rfl
    · have bits i (hi : i < 1152) : (v.generated i).genBit.1 = xor (raw (i + 31)) v.settings.genInvert :=
        Option.some.inj ((PatternUnit.genBits_get hi _).symm.trans (hraw i hi))
      have start i (hi : i < 31) : raw i = v.genReg.getLsbD (30 - i) := by rw [← hv]; exact hreg i hi
      have register {j : Nat} (hj : j ≤ 1152) := PatternUnit.generated_register start bits hj
      refine ⟨fun i hi => ?_, register le_rfl⟩
      have bit := bits i hi
      rw [PatternUnit.genBit, PatternUnit.generated_settings] at bit
      rw [← Bool.xor_left_inj.1 bit, Pattern.nextBit_register hk]
      have reach {back : Nat} (hb : 0 < back) (hle : back ≤ 31) :
          (v.generated i).genReg.getLsbD (back - 1) = raw (i + 31 - back) := by
        have place : i + 30 - (back - 1) = i + 31 - back := by omega
        rw [← place]
        exact register hi.le _ (by omega)
      have backs : (0 < back₁ ∧ back₁ ≤ 31) ∧ 0 < back₂ ∧ back₂ ≤ 31 := by
        simp only [List.mem_cons, Prod.mk.injEq, List.not_mem_nil, or_false] at hk
        omega
      obtain ⟨⟨pos₁, le₁⟩, pos₂, le₂⟩ := backs
      rw [reach pos₁ le₁, reach pos₂ le₂]

end Sys2Proof.Machine
end

section
/-! PROOFS. The port-down stage by stage: what the share of each block keeps, as narrow views. -/

namespace Sys2Proof.Machine

/-! ### The views -/

/-- All but bids, refusals and the count of lost refusals (R69). -/
def View.refusals : View where
  port P := { P with refusalOutbox := [], counters := { P.counters with refusalLost := 0 } }
  did D := { D with bids := .const [] }
  rest s := s

/-- All but what the grant engine changes in a port-down: records, bids, outboxes and reserved usage (R85 to R87). -/
def View.records : View where
  port P := { View.refusals.port P with grants := Vector.replicate 32 (.const none), grantOutbox := [] }
  did D := { View.refusals.did D with usage := .const ⟨0, 0⟩ }
  rest s := s

/-- All but what the arrival unit changes in a port-down: trains, queues, and the marker use and the owed markers
(R104, R105). -/
def View.marks : View where
  port P := { P with trains := Vector.replicate 32 (.const .idle) }
  did D := { D with queues := .const [] }
  rest s := { s with markerUse := 0, owedMarkers := [] }

/-- All but what the release of an entry changes: queues, usage, references, credits, markers and stored multicast
cells (R124). -/
def View.stores : View where
  port P := { P with held := 0, owed := 0 }
  did D := { D with usage := .const ⟨0, 0⟩, queues := .const [], mcRefs := .const 0 }
  rest s := { s with markerUse := 0, owedMarkers := [], mcCells := [], poolUse := 0, mcHold := false }

/-- All but what a flush changes: the counters of DIDs besides (R123, R124). -/
def View.flush : View where
  port := View.stores.port
  did D := { View.stores.did D with counters := .zero }
  rest := View.stores.rest

/-- All but element lists, the element allowance and the command unit (R125, R157). -/
def View.elements : View where
  port P := { P with elements := [] }
  did D := D
  rest s := { s with elementUse := 0, cmdUnit := .ready }

/-- All but the trains of both tables (R104, R139, R140). -/
def View.trains : View where
  port P := { P with trains := Vector.replicate 32 (.const .idle), mcTrains := .const .idle }
  did D := D
  rest s := s

/-- All but what a cutover changes: destination entries, bids, refusals and trains (R89, R106, R140, R149). -/
def View.cutover : View where
  port P := { View.refusals.port P with trains := Vector.replicate 32 (.const .idle), mcTrains := .const .idle }
  did D := { View.refusals.did D with map := .unmapped, lastMove := .none, moveDone := false }
  rest s := s

section Coarser

variable {s t : State}

theorem State.Keeps.records_of_refusals (h : s.Keeps .refusals t) : s.Keeps .records t :=
  h.coarsen (fun _ => rfl) (fun _ => rfl) fun _ => rfl

theorem State.Keeps.flush_of_stores (h : s.Keeps .stores t) : s.Keeps .flush t :=
  h.coarsen (fun _ => rfl) (fun _ => rfl) fun _ => rfl

theorem State.Keeps.cutover_of_refusals (h : s.Keeps .refusals t) : s.Keeps .cutover t :=
  h.coarsen (fun _ => rfl) (fun _ => rfl) fun _ => rfl

theorem State.Keeps.cutover_of_trains (h : s.Keeps .trains t) : s.Keeps .cutover t :=
  h.coarsen (fun _ => rfl) (fun _ => rfl) fun _ => rfl

end Coarser

section Writes

variable {V : View}

/-- A view that does not see usage keeps a change of it; and so for queues and references. -/
theorem State.Keeps.ofUsage (h : ∀ (D : DidState) u, V.did { D with usage := u } = V.did D) (s : State) (d : Did)
    (c : GClass) (f : Usage → Usage) : s.Keeps V (s.updUsage d c f) := by
  unfold State.updUsage State.setUsage
  exact .updDid _ _ _ fun D => h D _

theorem State.Keeps.ofQueue (h : ∀ (D : DidState) q, V.did { D with queues := q } = V.did D) (s : State) (d : Did)
    (c : Cls) (q : List QEntry) : s.Keeps V (s.setQueue d c q) := by
  unfold State.setQueue
  exact .updDid _ _ _ fun D => h D _

theorem State.Keeps.ofRefs (h : ∀ (D : DidState) r, V.did { D with mcRefs := r } = V.did D) (s : State) (d : Did)
    (c : GClass) (f : Nat → Nat) : s.Keeps V (s.updRefs d c f) := by
  unfold State.updRefs
  exact .updDid _ _ _ fun D => h D _

end Writes

/-! ### Refusals and bids -/

theorem State.refuse_keepsRefusals (s : State) (p : PortId) (r : RefusalEntry) : s.Keeps .refusals (s.refuse p r) := by
  obtain ⟨-, e⟩ | ⟨-, -, -, e⟩ | ⟨-, -, -, e⟩ := s.refuse_cases p r <;> rw [e]
  · exact .refl _ _
  · exact .updPort _ _ _ fun _ => rfl
  · exact .updPort _ _ _ fun _ => rfl

theorem State.setBids_keepsRefusals (s : State) (d : Did) (c : GClass) (q : List BidEntry) :
    s.Keeps .refusals (s.setBids d c q) :=
  .updDid _ _ _ fun _ => rfl

theorem State.removeBids_keepsRefusals (s : State) (d : Did) (c : GClass) (why : Reason) :
    s.Keeps .refusals (s.removeBids d c why) :=
  (State.Keeps.foldl (fun t _ => t.refuse_keepsRefusals _ _) _ _).trans (State.setBids_keepsRefusals _ _ _ _)

/-! ### The grant engine -/

theorem State.closeGrant_keepsRecords (s : State) (p : PortId) (d : Did) (c : GClass) :
    s.Keeps .records (s.closeGrant p d c) := by
  obtain ⟨-, e⟩ | ⟨g, -, e⟩ := s.closeGrant_cases p d c <;> rw [e]
  · exact .refl _ _
  · have usage := State.Keeps.ofUsage (V := .records) (fun _ _ => rfl) s d c (Usage.unreserve g.remaining)
    have record (t : State) : t.Keeps .records (t.setGrant p d c none) := .updPort _ _ _ fun _ => rfl
    have outbox (t : State) : t.Keeps .records (t.updOutbox p (outboxWithout d c)) := .updPort _ _ _ fun _ => rfl
    exact usage.trans ((record _).trans (outbox _))

theorem State.revokeOne_keepsRecords (s : State) (d : Did) (c : GClass) (p : PortId) :
    s.Keeps .records (s.revokeOne d c p) := by
  unfold State.revokeOne
  split
  · exact .refl _ _
  · exact (s.closeGrant_keepsRecords p d c).trans (State.refuse_keepsRefusals _ p _).records_of_refusals

theorem State.grantDestDown_keepsRecords (s : State) (d : Did) : s.Keeps .records (s.grantDestDown d) :=
  .foldl (fun t c => (State.Keeps.foldl (fun u q => u.revokeOne_keepsRecords d c q) t allPorts).trans
    (State.removeBids_keepsRefusals _ d c _).records_of_refusals) _ _

theorem State.grantSourceDown_keepsRecords (s : State) (p : PortId) : s.Keeps .records (s.grantSourceDown p) := by
  have port (t : State) : t.Keeps .records (t.updPort p fun P =>
      { P with grants := tabMap (fun _ _ => PerG.const none) P.grants, grantOutbox := [], refusalOutbox := [] }) :=
    .updPort _ _ _ fun _ => rfl
  have unseen (D : DidState) (b : PerG (List BidEntry)) (u : PerG Usage) :
      View.records.did { D with bids := b, usage := u } = View.records.did D := rfl
  exact (State.Keeps.mapDids .records s fun _ D => unseen D _ _).trans (port _)

/-! ### The arrival unit -/

theorem State.placeMark_keepsMarks (s : State) (k : MarkerKey) : s.Keeps .marks (s.placeMark k) :=
  (State.Keeps.ofQueue (V := .marks) (fun _ _ => rfl) s k.did k.cls _).trans (.ofRest rfl rfl rfl)

theorem State.owed_keepsMarks (s : State) (use : Nat) (owed : List MarkerKey) :
    s.Keeps .marks { s with markerUse := use, owedMarkers := owed } := .ofRest rfl rfl rfl

theorem State.makeMarks_keepsMarks (s : State) (ks : List MarkerKey) : s.Keeps .marks (s.makeMarks ks) := by
  refine .foldl (fun t k => ?_) _ _
  obtain ⟨-, e⟩ | ⟨-, -, e⟩ | ⟨-, -, e⟩ := t.makeMark_cases k <;> rw [e]
  · exact t.placeMark_keepsMarks k
  · exact .refl _ _
  · exact t.owed_keepsMarks _ _

theorem State.arrivalSourceDown_keepsMarks (s : State) (p : PortId) : s.Keeps .marks (s.arrivalSourceDown p) :=
  have idle (t : State) : t.Keeps .marks (t.updPort p fun P =>
      { P with trains := tabMap (fun _ _ => PerClass.const .idle) P.trains }) := .updPort _ _ _ fun _ => rfl
  (s.makeMarks_keepsMarks _).trans (idle _)

theorem State.arrivalDestDown_keepsMarks (s : State) (d : Did) : s.Keeps .marks (s.arrivalDestDown d) :=
  have idle : s.Keeps .marks (s.idleTrainsOf d) := .mapPorts _ _ fun _ _ => rfl
  idle.trans (State.owed_keepsMarks _ _ _)

/-! ### The flush -/

/-- A return of a marker store changes queues and markers alone (R102). -/
theorem State.returnMark_keepsStores (s : State) : s.Keeps .stores s.returnMark := by
  have owed (use : Nat) (owed : List MarkerKey) : s.Keeps .stores { s with markerUse := use, owedMarkers := owed } :=
    .ofRest rfl rfl rfl
  have placed (t : State) (k : MarkerKey) : t.Keeps .stores (t.placeMark k) :=
    (State.Keeps.ofQueue (V := .stores) (fun _ _ => rfl) t k.did k.cls _).trans (.ofRest rfl rfl rfl)
  obtain ⟨-, e⟩ | ⟨-, -, e⟩ | ⟨-, k, more, -, e⟩ := s.returnMark_cases <;> rw [e]
  · exact owed _ _
  · exact owed _ _
  · exact (owed _ _).trans (placed _ k)

theorem State.releaseEntry_keepsStores (s : State) (d : Did) (c : Cls) (e : QEntry) :
    s.Keeps .stores (s.releaseEntry d c e) := by
  have ref (t : State) (n : Nat) : t.Keeps .stores (t.releaseRef n) := by
    unfold State.releaseRef
    split
    · exact .refl _ _
    · split_ifs <;> exact .ofRest rfl rfl rfl
  have usage := State.Keeps.ofUsage (V := .stores) (fun _ _ => rfl) s d
  have refs := State.Keeps.ofRefs (V := .stores) (fun _ _ => rfl) s d
  have credit (q : PortId) : s.Keeps .stores (s.releaseCredit q) := .updPort _ _ _ fun P => by split_ifs <;> rfl
  cases e with
  | cell x =>
    cases c
    case c0 => exact credit x.src
    all_goals exact usage _ _
  | mref n =>
    cases c
    case c0 => exact ref s n
    all_goals exact (refs _ _).trans (ref _ n)
  | mark src mc => exact s.returnMark_keepsStores

theorem State.flushQueue_keepsStores (s : State) (d : Did) (c : Cls) : s.Keeps .stores (s.flushQueue d c) :=
  (State.Keeps.ofQueue (V := .stores) (fun _ _ => rfl) s d c []).trans
    (.foldl (fun u e => u.releaseEntry_keepsStores d c e) _ _)

theorem State.flushDid_keepsFlush (s : State) (d : Did) (k : Nat → DidCounters → DidCounters) :
    s.Keeps .flush (s.flushDid d k) := by
  have counted (t : State) (f : DidCounters → DidCounters) : t.Keeps .flush (t.countDid d f) := .updDid _ _ _ fun _ => rfl
  exact (State.Keeps.foldl (fun t c => (t.flushQueue_keepsStores d c).flush_of_stores) s Cls.all).trans (counted _ _)

/-! ### The element list and the trains of multicast cells -/

theorem State.placeElement_keepsElements (s : State) (p : PortId) (f : Frame) :
    s.Keeps .elements (s.placeElement p f) :=
  have placed : s.Keeps .elements (s.updPort p fun P => { P with elements := P.elements ++ [f] }) :=
    .updPort _ _ _ fun _ => rfl
  placed.trans (.ofRest rfl rfl rfl)

theorem State.offerHeld_keepsElements (s : State) : s.Keeps .elements s.offerHeld := by
  unfold State.offerHeld
  split
  · exact .refl _ _
  · split_ifs
    · exact .ofRest rfl rfl rfl
    · exact (s.placeElement_keepsElements _ _).trans (.ofRest rfl rfl rfl)
    · exact .refl _ _

theorem State.dropElements_keepsElements (s : State) (p : PortId) : s.Keeps .elements (s.dropElements p) := by
  have held : s.Keeps .elements (s.dropHeld p) := by
    unfold State.dropHeld
    split
    · split_ifs
      · exact .ofRest rfl rfl rfl
      · exact .refl _ _
    · exact .refl _ _
  have freed (t : State) (n : Nat) : t.Keeps .elements (t.freeElements n) := by
    obtain rfl | hn := n.eq_zero_or_pos
    · exact .refl _ _
    · rw [t.freeElements_pos hn]
      have fewer : t.Keeps .elements { t with elementUse := t.elementUse - n } := .ofRest rfl rfl rfl
      exact fewer.trans (State.offerHeld_keepsElements _)
  have emptied : (s.dropHeld p).Keeps .elements ((s.dropHeld p).updPort p fun P => { P with elements := [] }) :=
    .updPort _ _ _ fun _ => rfl
  exact held.trans (emptied.trans (freed _ _))

theorem State.mcSourceDown_keepsTrains (s : State) (p : PortId) : s.Keeps .trains (s.mcSourceDown p) :=
  .updPort _ _ _ fun _ => rfl

theorem State.mcForget_keepsTrains (s : State) (d : Did) : s.Keeps .trains (s.mcForget d) :=
  .mapPorts _ _ fun _ _ => rfl

theorem State.idleTrainsOf_keepsTrains (s : State) (d : Did) : s.Keeps .trains (s.idleTrainsOf d) :=
  .mapPorts _ _ fun _ _ => rfl

/-! ### Cutovers -/

theorem State.rejudgeBids_keepsRefusals (s : State) (d : Did) : s.Keeps .refusals (s.rejudgeBids d) := by
  have removed (why : Reason) : s.Keeps .refusals (GClass.all.foldl (fun t c => t.removeBids d c why) s) :=
    .foldl (fun t _ => t.removeBids_keepsRefusals _ _ _) _ _
  unfold State.rejudgeBids
  split
  · exact removed _
  · split_ifs
    · exact .refl _ _
    · exact removed _

theorem State.afterCutover_keepsCutover (s : State) (d : Did) : s.Keeps .cutover (s.afterCutover d) := by
  unfold State.afterCutover
  dsimp only
  split_ifs
  · exact (s.rejudgeBids_keepsRefusals d).cutover_of_refusals
  · exact (s.rejudgeBids_keepsRefusals d).cutover_of_refusals.trans
      (((State.idleTrainsOf_keepsTrains _ d).trans (State.mcForget_keepsTrains _ d)).cutover_of_trains)

theorem State.judgeDrain_keepsCutover (s : State) (d : Did) : s.Keeps .cutover (s.judgeDrain d) := by
  have written (t : State) (m : DidMap) (r : MoveResult) : t.Keeps .cutover ((t.setMap d m).completeMove d r) := by
    rw [t.setMap_completeMove]
    exact .updDid _ _ _ fun _ => rfl
  obtain ⟨_, _, _, _, -, -, e⟩ | ⟨-, e⟩ := s.judgeDrain_cases d <;> rw [e]
  · exact (written _ _ _).trans (State.afterCutover_keepsCutover _ d)
  · exact .refl _ _

theorem State.drainStep_keepsCutover (s t : State) : t.Keeps .cutover (s.drainStep t) :=
  .foldl State.judgeDrain_keepsCutover t _

/-! ### The stages of a port-down -/

/-- The share of the grant engine: `p` as a source, and for the DIDs mapped to it (R85 to R87). -/
def State.recordsDown (s : State) (p : PortId) : State := (s.didsOf p).foldl State.grantDestDown (s.grantSourceDown p)

/-- The share of the arrival unit, for the DIDs `ds` (R104, R105). -/
def State.marksDown (s : State) (p : PortId) (ds : List Did) : State :=
  ds.foldl State.arrivalDestDown (s.arrivalSourceDown p)

/-- The flush of the DIDs `ds` (R123, R124). -/
def State.flushedDown (s : State) (ds : List Did) : State := ds.foldl (fun t d => t.flushDid d .addFlush) s

/-- The share of the multicast unit (R139, R140). -/
def State.trainsDown (s : State) (p : PortId) (ds : List Did) : State := ds.foldl State.mcForget (s.mcSourceDown p)

theorem State.blocksDown_eq (s : State) (p : PortId) :
    s.blocksDown p = (((((s.recordsDown p).marksDown p (s.didsOf p)).flushedDown (s.didsOf p)).dropElements p).trainsDown p
      (s.didsOf p)).updPort p fun P => { P with owed := 0 } := rfl

theorem State.recordsDown_keeps (s : State) (p : PortId) : s.Keeps .records (s.recordsDown p) :=
  (s.grantSourceDown_keepsRecords p).trans (.foldl State.grantDestDown_keepsRecords _ _)

theorem State.marksDown_keeps (s : State) (p : PortId) (ds : List Did) : s.Keeps .marks (s.marksDown p ds) :=
  (s.arrivalSourceDown_keepsMarks p).trans (.foldl State.arrivalDestDown_keepsMarks _ _)

theorem State.flushedDown_keeps (s : State) (ds : List Did) : s.Keeps .flush (s.flushedDown ds) :=
  .foldl (fun t d => t.flushDid_keepsFlush d _) _ _

theorem State.trainsDown_keeps (s : State) (p : PortId) (ds : List Did) : s.Keeps .trains (s.trainsDown p ds) :=
  (s.mcSourceDown_keepsTrains p).trans (.foldl State.mcForget_keepsTrains _ _)

end Sys2Proof.Machine
end

section
/-! PROOFS. The commands that change a port: PORT-SET, TEST-START and TEST-STOP, with the lists they leave. -/

namespace Sys2Proof.Machine

/-! ### Element lists, the command unit and the command queue -/

/-- Between `s` and `t`, with the command unit ready, port `p` alone loses element cells, and the command unit stays as
it is (R125, R157). -/
structure State.Lists (s : State) (p : PortId) (t : State) : Prop where
  unit : s.cmdUnit = .ready → t.cmdUnit = .ready
  others : s.cmdUnit = .ready → ∀ q, q ≠ p → (t.port q).elements = (s.port q).elements
  queue : t.cmdQueue = s.cmdQueue

namespace State.Lists

variable {s t u : State} {p : PortId}

theorem refl (s : State) (p : PortId) : s.Lists p s := ⟨id, fun _ _ _ => rfl, rfl⟩

theorem trans (h : s.Lists p t) (k : t.Lists p u) : s.Lists p u :=
  ⟨fun x => k.unit (h.unit x), fun x q hq => (k.others (h.unit x) q hq).trans (h.others x q hq), k.queue.trans h.queue⟩

/-- A view that shows the lists. -/
theorem ofKeeps {V : View} (h : s.Keeps V t) (port : ∀ P : Port, (V.port P).elements = P.elements)
    (unit : ∀ x : State, (V.rest x.bare).cmdUnit = x.cmdUnit) (queue : ∀ x : State, (V.rest x.bare).cmdQueue = x.cmdQueue) :
    s.Lists p t :=
  ⟨fun x => (h.restField State.cmdUnit unit).trans x, fun _ q _ => h.portField Port.elements port q,
    h.restField State.cmdQueue queue⟩

theorem updPort (s : State) (p : PortId) (f : Port → Port) : s.Lists p (s.updPort p f) :=
  ⟨id, fun _ _ hq => by rw [s.updPort_port_ne f hq], rfl⟩

end State.Lists

/-- With the command unit ready no response waits for the stores that the element cells of `p` free. -/
theorem State.dropElements_lists (s : State) (p : PortId) : s.Lists p (s.dropElements p) := by
  have ready (h : s.cmdUnit = .ready) (n : Nat) : ∃ use, ((s.dropHeld p).updPort p fun P =>
      { P with elements := [] }).freeElements n =
        { s.updPort p fun P => { P with elements := [] } with elementUse := use } := by
    have held : s.dropHeld p = s := by unfold State.dropHeld; rw [h]
    rw [held]
    obtain rfl | hn := n.eq_zero_or_pos
    · exact ⟨s.elementUse, rfl⟩
    · rw [State.freeElements_pos _ hn]
      refine ⟨s.elementUse - n, ?_⟩
      unfold State.offerHeld
      simp only [State.updPort_cmdUnit, h, State.updPort_elementUse]
  refine ⟨fun h => ?_, fun h q hq => ?_, (s.dropElements_keepsElements p).restField State.cmdQueue fun _ => rfl⟩ <;>
    obtain ⟨use, e⟩ := ready h (s.port p).elements.length <;> rw [State.dropElements, e]
  · exact h
  · exact congrArg Port.elements (s.updPort_port_ne (fun P => { P with elements := [] }) hq :)

theorem State.blocksDown_lists (s : State) (p : PortId) : s.Lists p (s.blocksDown p) := by
  rw [State.blocksDown_eq]
  exact (State.Lists.ofKeeps (s.recordsDown_keeps p) (fun _ => rfl) (fun _ => rfl) fun _ => rfl).trans
    ((State.Lists.ofKeeps (State.marksDown_keeps _ p _) (fun _ => rfl) (fun _ => rfl) fun _ => rfl).trans
      ((State.Lists.ofKeeps (State.flushedDown_keeps _ _) (fun _ => rfl) (fun _ => rfl) fun _ => rfl).trans
        ((State.dropElements_lists _ p).trans
          ((State.Lists.ofKeeps (State.trainsDown_keeps _ p _) (fun _ => rfl) (fun _ => rfl) fun _ => rfl).trans
            (.updPort _ p _)))))

theorem State.leaveFor_lists (s : State) (p : PortId) (entry : Port → Port) (why : DownCause) :
    s.Lists p (s.leaveFor p entry why) := by
  obtain ⟨-, e⟩ | ⟨-, e⟩ := s.leaveFor_cases p entry why <;> rw [e]
  · exact (State.Lists.updPort s p _).trans (State.blocksDown_lists _ p)
  · exact .updPort s p _

theorem State.judgeFault_lists (s : State) (p : PortId) : s.Lists p (s.judgeFault p) := by
  obtain ⟨-, -, e⟩ | ⟨-, -, e⟩ | e := s.judgeFault_cases p <;> rw [e]
  · exact s.leaveFor_lists p _ _
  · exact s.leaveFor_lists p _ _
  · exact .refl s p

theorem State.applyPortSet_lists (s : State) (p : PortId) (cmd : CmdCell) : s.Lists p (s.applyPortSet p cmd) := by
  refine (State.Lists.updPort s p fun P => { P with settings := newSettings cmd P.settings }).trans ?_
  unfold State.applyPortSet State.applyEnable
  dsimp only
  split_ifs
  · exact (State.leaveFor_lists _ p _ _).trans (State.judgeFault_lists _ p)
  · exact (State.leaveFor_lists _ p _ _).trans (State.judgeFault_lists _ p)
  · exact State.judgeFault_lists _ p

/-- The end of an event lets element lists grow by notices, and leaves the command unit and its queue (R157, R177). -/
theorem eventEnd_lists (s t : State) : (eventEnd s t).cmdUnit = t.cmdUnit ∧ (eventEnd s t).cmdQueue = t.cmdQueue ∧
    ∀ q, ∃ fs, ((eventEnd s t).port q).elements = (t.port q).elements ++ fs := by
  have drained := s.drainStep_keepsCutover t
  have noticed := noticeStep_keeps s (s.drainStep t)
  refine ⟨(noticed.restField State.cmdUnit fun _ => rfl).trans (drained.restField State.cmdUnit fun _ => rfl),
    (noticed.restField State.cmdQueue fun _ => rfl).trans (drained.restField State.cmdQueue fun _ => rfl), fun q => ?_⟩
  obtain ⟨fs, e⟩ := noticeStep_port s (s.drainStep t) q
  have kept : ((s.drainStep t).port q).elements = (t.port q).elements := drained.portField Port.elements (fun _ => rfl) q
  refine ⟨fs, ?_⟩
  rw [eventEnd, e, ← kept]

/-! ### Events that take no port out of UP -/

theorem Port.left_down {P : Port} (h : P.link ≠ .up) (entry : Port → Port) (why : DownCause) :
    P.left entry why = entry P := by
  unfold Port.left
  rw [if_neg h]

theorem State.leaveFor_down {s : State} {p : PortId} (h : (s.port p).link ≠ .up) (entry : Port → Port) (why : DownCause) :
    s.leaveFor p entry why = s.updPort p (Port.left entry why) := by
  obtain ⟨hu, -⟩ | ⟨-, e⟩ := s.leaveFor_cases p entry why
  · exact absurd ((s.isUp_iff p).1 hu) h
  · rw [e]
    exact State.updPort_congr s p (Port.left_down h entry why).symm

/-- A judgement of the fault causes that takes no port out of UP writes the port alone. -/
theorem State.judgeFault_alone {s : State} {p : PortId} (h : (s.port p).link ≠ .up ∨ (s.port p).judged.link = .up) :
    s.judgeFault p = s.updPort p Port.judged := by
  have judged (e : s.judgeFault p = s) (e' : (s.port p).judged = s.port p) : s.judgeFault p = s.updPort p Port.judged :=
    e.trans (s.updPort_self p e').symm
  have leaves {entry : Port → Port} (hl : (s.port p).link ≠ .up) (e : s.judgeFault p = s.leaveFor p entry .fault)
      (e' : (s.port p).judged = (s.port p).left entry .fault) : s.judgeFault p = s.updPort p Port.judged :=
    e.trans ((State.leaveFor_down hl entry .fault).trans (State.updPort_congr s p e'.symm))
  unfold Port.judged at judged leaves h
  unfold State.judgeFault at judged leaves ⊢
  cases hl : (s.port p).link with
  | disabled | test => exact judged (by simp only [hl]) (by simp only [hl])
  | faulted =>
    cases hf : (s.port p).faultCause
    · exact leaves (by rw [hl]; decide) (by simp only [hl, hf]; rfl) (by simp only [hl, hf]; rfl)
    · exact judged (by simp only [hl, hf]; rfl) (by simp only [hl, hf]; rfl)
  | acquiring | waiting | up =>
    cases hf : (s.port p).faultCause
    · exact judged (by simp only [hl, hf]; rfl) (by simp only [hl, hf]; rfl)
    · refine leaves ?_ (by simp only [hl, hf]; rfl) (by simp only [hl, hf]; rfl)
      rcases h with h | h
      · exact h
      · simp only [hl, hf] at h
        exact absurd h (by decide : LinkState.faulted ≠ .up)

/-- What a judgement of the fault causes leaves of a port besides its link (R35, R36). -/
theorem Port.judged_parts (P : Port) : P.judged.test = P.test ∧ P.judged.grants = P.grants ∧
    P.judged.grantOutbox = P.grantOutbox ∧ P.judged.elements = P.elements := by
  unfold Port.judged
  cases P.link <;> cases P.faultCause <;> exact ⟨rfl, rfl, rfl, rfl⟩

theorem Port.setBy_parts (cmd : CmdCell) (P : Port) :
    (P.setBy cmd).grants = P.grants ∧ (P.setBy cmd).grantOutbox = P.grantOutbox ∧
      (P.setBy cmd).elements = P.elements := by
  unfold Port.setBy Port.enabledFrom
  dsimp only
  split_ifs <;> exact ⟨rfl, rfl, rfl⟩

/-- A change of enable, where it was cleared, where it was set on a DISABLED port, and otherwise (R39). -/
theorem Port.enabledFrom_cases (before : Bool) (P : Port) :
    ((before && !P.settings.enable) = true ∧ P.enabledFrom before = P.left Port.enterDisabled .disable) ∨
    ((before && !P.settings.enable) = false ∧ (!before && P.settings.enable) = true ∧ P.link = .disabled ∧
      P.enabledFrom before = P.enterAcquiring) ∨
    ((before && !P.settings.enable) = false ∧ (!before && P.settings.enable && decide (P.link = .disabled)) = false ∧
      P.enabledFrom before = P) := by
  unfold Port.enabledFrom
  split_ifs with hd ha
  · exact .inl ⟨hd, rfl⟩
  · have parts := ha
    simp only [Bool.and_eq_true, decide_eq_true_eq] at parts
    refine .inr (.inl ⟨Bool.eq_false_iff.2 hd, by simp [parts.1], parts.2, ?_⟩)
    exact Port.left_down (by rw [parts.2]; decide) _ _
  · exact .inr (.inr ⟨Bool.eq_false_iff.2 hd, Bool.eq_false_iff.2 ha, rfl⟩)

/-- A change of enable that takes no port out of UP writes the port alone (R39). -/
theorem State.applyEnable_alone {s : State} {p : PortId} {before : Bool}
    (h : (s.port p).link ≠ .up ∨ ((s.port p).enabledFrom before).judged.link = .up) :
    s.applyEnable p before = s.updPort p fun P => (P.enabledFrom before).judged := by
  have judged {t : State} {f : Port → Port} (e : s.applyEnable p before = t.judgeFault p) (ht : t = s.updPort p f)
      (hf : f (s.port p) = (s.port p).enabledFrom before)
      (hl : (f (s.port p)).link ≠ .up ∨ (f (s.port p)).judged.link = .up) :
      s.applyEnable p before = s.updPort p fun P => (P.enabledFrom before).judged := by
    rw [e, ht, State.judgeFault_alone (by rw [State.updPort_port_self]; exact hl), State.updPort_updPort]
    exact State.updPort_congr s p (congrArg Port.judged hf)
  unfold State.applyEnable at judged ⊢
  dsimp only at judged ⊢
  obtain ⟨hd, e⟩ | ⟨hd, ha, hl, e⟩ | ⟨hd, ha, e⟩ := (s.port p).enabledFrom_cases before
  · have down : (s.port p).link ≠ .up := h.resolve_right (by
      rw [e]
      exact (by decide : LinkState.disabled ≠ .up))
    exact judged (by rw [if_pos hd]) (State.leaveFor_down down _ _) e.symm (.inl (by decide : LinkState.disabled ≠ .up))
  · have down : (s.port p).link ≠ .up := by rw [hl]; decide
    have leaves : (!before && (s.port p).settings.enable && decide ((s.port p).link = .disabled)) = true := by
      rw [ha, decide_eq_true hl]
      rfl
    refine judged (by rw [if_neg (by rw [hd]; decide), if_pos leaves]) (State.leaveFor_down down _ _)
      ((Port.left_down down _ _).trans e.symm) (.inl ?_)
    exact (by decide : LinkState.acquiring ≠ .up)
  · refine judged (f := id) (by rw [if_neg (by rw [hd]; decide), if_neg (by rw [ha]; decide)])
      (s.updPort_self p rfl).symm e.symm ?_
    rw [e] at h
    exact h

theorem State.applyPortSet_alone {s : State} {p : PortId} {cmd : CmdCell}
    (h : (s.port p).link ≠ .up ∨ ((s.port p).setBy cmd).judged.link = .up) :
    s.applyPortSet p cmd = s.updPort p fun P => (P.setBy cmd).judged := by
  have port := State.updPort_port_self s p fun P => { P with settings := newSettings cmd P.settings }
  unfold State.applyPortSet
  rw [State.applyEnable_alone (by rw [port]; exact h), State.updPort_updPort]
  exact State.updPort_congr s p rfl

/-! ### PORT-SET -/

/-- What of a port a PORT-SET leaves, with `before` its enable setting as it was and `n` the settings it leaves: link
state, last down cause and pattern unit (R25, R35, R36, R39, R189). -/
theorem Port.setBy_shows (cmd : CmdCell) (P : Port) {before : Bool} {n : Settings} (hb : before = P.settings.enable)
    (hn : n = newSettings cmd P.settings) :
    (P.setBy cmd).judged.link =
      (if before && !n.enable then .disabled
       else match (if !before && n.enable && decide (P.link = .disabled) then .acquiring else P.link) with
          | .disabled => .disabled
          | .test => .test
          | .faulted => if P.stuck.asserted || (P.quality.alarm && n.qualityFault) then .faulted else .acquiring
          | l => if P.stuck.asserted || (P.quality.alarm && n.qualityFault) then .faulted else l) ∧
    (P.setBy cmd).judged.lastDown =
      (if P.link ≠ .up then P.lastDown
       else if before && !n.enable then .disable
       else if P.stuck.asserted || (P.quality.alarm && n.qualityFault) then .fault else P.lastDown) ∧
    (P.setBy cmd).judged.test =
      (if before && !n.enable && decide (P.link = .test)
       then { P.test with running := false, sync := .searching, badRun := 0 } else P.test) := by
  subst hb hn
  rw [Port.judged_link, Port.judged_lastDown, (Port.judged_parts _).1]
  set n := newSettings cmd P.settings with hn
  have cause : Port.faultCause { P with settings := n } = (P.stuck.asserted || (P.quality.alarm && n.qualityFault)) := rfl
  obtain ⟨hd, e⟩ | ⟨hd, ha, hl, e⟩ | ⟨hd, ha, e⟩ :=
    Port.enabledFrom_cases P.settings.enable { P with settings := n }
  · change (P.settings.enable && !n.enable) = true at hd
    rw [Port.setBy, e, hd]
    refine ⟨rfl, ?_, ?_⟩
    · change (if P.link = .up then DownCause.disable else P.lastDown) = _
      by_cases hl : P.link = .up <;> simp [hl]
    · change (if P.link = .test then P.test.stop else P.test) = _
      by_cases hl : P.link = .test <;> simp [hl, PatternUnit.stop]
  · change (P.settings.enable && !n.enable) = false at hd
    change (!P.settings.enable && n.enable) = true at ha
    change P.link = .disabled at hl
    rw [Port.setBy, e, hd, ha, hl]
    exact ⟨rfl, rfl, rfl⟩
  · change (P.settings.enable && !n.enable) = false at hd
    change (!P.settings.enable && n.enable && decide (P.link = .disabled)) = false at ha
    rw [Port.setBy, e, hd, ha, cause]
    refine ⟨by cases P.link <;> rfl, ?_, rfl⟩
    by_cases hl : P.link = .up <;> simp [hl]

/-- The settings a PORT-SET leaves, one by one (R164). -/
theorem newSettings_fields (cmd : CmdCell) (o n : Settings) (hn : n = newSettings cmd o) :
    n.enable = (if cmd.names 0 then decide (cmd.param 3 ≠ 0) else o.enable) ∧
    n.autoRecentre = (if cmd.names 1 then decide (cmd.param 4 ≠ 0) else o.autoRecentre) ∧
    n.payloadMode = (if cmd.names 2 then (if cmd.param 5 = 0 then .forward else .drop) else o.payloadMode) ∧
    n.squelch = (if cmd.names 3 then decide (cmd.param 6 ≠ 0) else o.squelch) ∧
    n.qualityFault = (if cmd.names 4 then decide (cmd.param 7 ≠ 0) else o.qualityFault) ∧
    n.stuckN = (if cmd.names 5 then min 255 (cmd.param 8).toNat else o.stuckN) ∧
    n.stuckK = (if cmd.names 6 then min 63 (cmd.param 9).toNat else o.stuckK) ∧
    n.qualA = (if cmd.names 7 then min 63 (cmd.param 10).toNat else o.qualA) ∧
    n.qualD = (if cmd.names 8 then min 63 (cmd.param 11).toNat else o.qualD) ∧
    (cmd.names 9 = true → n.cadence.length = (cmd.param 12).toNat ∧
      ∀ i, i < (cmd.param 12).toNat → n.cadence[i]? = some ((cmd.param 13).getLsbD i)) ∧
    (cmd.names 9 = false → n.cadence = o.cadence) ∧
    n.mayCommand = (if cmd.names 10 then decide (cmd.param 14 ≠ 0) else o.mayCommand) ∧
    n.report = (if cmd.names 11 then decide (cmd.param 15 ≠ 0) else o.report) := by
  subst hn
  have clamped (hi x : Nat) : clampNat 0 hi x = min hi x := Nat.zero_max _
  have mode : (if Word.flag (cmd.param 5) then PayloadMode.drop else .forward) =
      if cmd.param 5 = 0 then .forward else .drop := by
    by_cases h : cmd.param 5 = 0 <;> simp [Word.flag, h]
  refine ⟨rfl, rfl, ?_, rfl, rfl, ?_, ?_, ?_, ?_, fun h => ?_, fun h => ?_, rfl, rfl⟩
  · rw [← mode]; rfl
  · rw [← clamped]; rfl
  · rw [← clamped]; rfl
  · rw [← clamped]; rfl
  · rw [← clamped]; rfl
  · have given : (newSettings cmd o).cadence = cadenceOf (cmd.param 12).toNat (cmd.param 13) := if_pos h
    rw [given, cadenceOf]
    refine ⟨by simp, fun i hi => ?_⟩
    simp [hi]
  · exact if_neg (by rw [h]; decide)

/-- A PORT-SET that is not refused (R161, R164). -/
theorem doPortSet_accepts {cmd : CmdCell} {s : State} {p : PortId} (hp : (cmd.param 1).toNat = p.val)
    (hl : clearsCommand cmd = true → (s.port p).link = .up → (s.port p).settings.mayCommand = true →
      ∃ q, q ≠ p ∧ (s.port q).link = .up ∧ (s.port q).settings.mayCommand = true)
    (hc : badCadence cmd = false) (hr : tooManyReports cmd p s = false) :
    doPortSet cmd s =
      .accept (portSetClamps cmd (s.port p).settings) [] (eventEnd s (s.applyPortSet p cmd)) := by
  have last : (s.lastCommander p && clearsCommand cmd) = false := by
    cases h : clearsCommand cmd
    · exact Bool.and_false _
    · rw [State.lastCommander_eq_false (hl h)]
      rfl
  rw [doPortSet_port cmd s p hp, last, hc, hr]
  rfl

/-- A command of a ready state, carried out on the state with the command taken. -/
theorem commandStep_answers {s : State} {cmd : CmdCell} {rest : List CmdCell} {code : Code}
    (h : Ready s cmd rest (some code)) {judge : CmdCell → State → Reply} {r : Reply}
    (hr : judge cmd (s.taken cmd rest) = r) :
    commandStep (some code) (fun c t => judgeCommand c judge t) s =
      r.state.responded cmd.src (responseFrame cmd.frame r.status r.results) := by
  rw [commandStep_ready h, judgeCommand_ready h, State.takeCommand_ready h, hr, State.offerResponse_eq]

/-- The port of a state whose command was taken: its credits alone may differ (R155). -/
theorem State.taken_shows (s : State) (cmd : CmdCell) (rest : List CmdCell) (q : PortId) :
    ∃ h o, (s.taken cmd rest).port q = { s.port q with held := h, owed := o } := by
  have same : (s.taken cmd rest).port q = (s.updPort cmd.src Port.credited).port q := rfl
  rw [same]
  by_cases hq : q = cmd.src
  · subst hq
    rw [State.updPort_port_self]
    exact ⟨_, _, rfl⟩
  · rw [s.updPort_port_ne _ hq]
    exact ⟨_, _, rfl⟩

/-- What an accepted PORT-SET leaves of the port and of the lists, with the end of its event. -/
theorem State.applyPortSet_ends {s t : State} {p : PortId} {cmd : CmdCell} (ht : t = eventEnd s (s.applyPortSet p cmd)) :
    (t.port p).settings = newSettings cmd (s.port p).settings ∧ (t.port p).link = ((s.port p).setBy cmd).judged.link ∧
    (t.port p).lastDown = ((s.port p).setBy cmd).judged.lastDown ∧
    (t.port p).test = ((s.port p).setBy cmd).judged.test ∧
    (∀ q, q ≠ p → (t.port q).lasting = (s.port q).lasting) ∧ t.lasting = s.lasting ∧ t.cmdQueue = s.cmdQueue ∧
    (s.cmdUnit = .ready → t.cmdUnit = .ready ∧
      ∀ q, (t.port q).link = .up → ∃ fs, (t.port q).elements = (s.port q).elements ++ fs) ∧
    ((t.port p).link = .up ∨ (s.port p).link ≠ .up → t.dids = s.dids) := by
  subst ht
  obtain ⟨turned, hp⟩ := s.applyPortSet_turns p cmd
  have shows {α : Type} (g : Port → α) (hg : ∀ P : Port, g P.plain = g P) := eventEnd_shows turned hp g hg
  have ended := (eventEnd_turns turned).1
  have link := shows Port.link fun _ => rfl
  have lists := s.applyPortSet_lists p cmd
  obtain ⟨unit, queue, grow⟩ := eventEnd_lists s (s.applyPortSet p cmd)
  obtain ⟨-, grants, outbox, elements⟩ := Port.judged_parts ((s.port p).setBy cmd)
  obtain ⟨setGrants, setOutbox, setElements⟩ := Port.setBy_parts cmd (s.port p)
  have alone (h : ((s.port p).setBy cmd).judged.link = .up ∨ (s.port p).link ≠ .up) :=
    State.applyPortSet_alone (s := s) (p := p) (cmd := cmd) h.symm
  refine ⟨?_, link, shows Port.lastDown fun _ => rfl, shows Port.test fun _ => rfl, ended.port, ended.rest,
    queue.trans lists.queue, fun ready => ⟨unit.trans (lists.unit ready), fun q hq => ?_⟩, fun h => ?_⟩
  · exact (shows Port.settings fun _ => rfl).trans
      (((s.port p).setBy cmd).judged_kept.2.2.trans (Port.setBy_same cmd (s.port p)).1)
  · by_cases hqp : q = p
    · subst hqp
      rw [link] at hq
      obtain ⟨fs, e⟩ := grow q
      refine ⟨fs, e.trans ?_⟩
      rw [alone (.inl hq), State.updPort_port_self, elements, setElements]
    · obtain ⟨fs, e⟩ := grow q
      exact ⟨fs, e.trans (by rw [lists.others ready q hqp])⟩
  · rw [link] at h
    rw [alone h]
    exact (eventEnd_alone_rest (grants.trans setGrants) (outbox.trans setOutbox)).1

/-- Settles O46: the port is set, its fault causes are judged, and the event ends before the response. -/
theorem portSetChangesTheNamed : Obligations.PortSetChangesTheNamed := by
  rintro s cmd rest p P o named hnamed ready hp rfl rfl hlock hcadence hreport
  obtain rfl : named = cmd.names := funext hnamed
  set u := s.taken cmd rest with hu
  have port q : (u.port q).link = (s.port q).link ∧ (u.port q).settings = (s.port q).settings := s.taken_port cmd rest q
  have accepts : doPortSet cmd u = _ := doPortSet_accepts hp
    (by
      rw [clearsCommand_eq]
      simpa only [port] using hlock)
    (Bool.eq_false_iff.2 fun h => by
      obtain ⟨h9, hlen⟩ := (badCadence_iff cmd).1 h
      have := hcadence h9
      omega)
    (Bool.eq_false_iff.2 fun h => by
      obtain ⟨h11, h15, hlen⟩ := (tooManyReports_iff cmd p u).1 h
      simp only [port] at hlen
      exact absurd hlen (Nat.not_le.2 (hreport h11 h15)))
  obtain ⟨settings, link, lastDown, test, others, config, queue, lists, dids⟩ := State.applyPortSet_ends (s := u) (p := p)
    (cmd := cmd) rfl
  set t := eventEnd u (u.applyPortSet p cmd)
  have credits q : ∃ h o, u.port q = { s.port q with held := h, owed := o } := s.taken_shows cmd rest q
  obtain ⟨h, o, e⟩ := credits p
  rw [(port p).2] at settings accepts
  obtain ⟨shownLink, shownDown, shownTest⟩ := Port.setBy_shows cmd (u.port p) rfl rfl
  rw [← link] at shownLink
  rw [← lastDown] at shownDown
  rw [← test] at shownTest
  rw [e] at shownLink shownDown shownTest dids
  obtain ⟨unit, grow⟩ := lists ready.unit
  obtain ⟨enable, recentre, mode, squelch, fault, stuckN, stuckK, qualA, qualD, cadence, old, may, report⟩ :=
    newSettings_fields cmd (s.port p).settings _ rfl
  refine ⟨t, newSettings cmd (s.port p).settings,
    congrArg Host.Outcome.next (commandStep_answers ready accepts), settings, enable, recentre, mode, squelch, fault,
    stuckN, stuckK, qualA, qualD, cadence, old, may, report, fun q hq => ?_, shownTest, shownLink, shownDown, dids, queue,
    (congrArg State.classes config :), (congrArg State.lifetime config :), (congrArg State.groups config :),
    (congrArg State.poolSize config :), unit, fun hsrc => ?_⟩
  · obtain ⟨h', o', e'⟩ := credits q
    have same := others q hq
    rw [e'] at same
    exact ⟨(congrArg Port.settings same :), (congrArg Port.test same :)⟩
  · obtain ⟨h', o', e'⟩ := credits cmd.src
    obtain ⟨fs, grown⟩ := grow cmd.src hsrc
    rw [e'] at grown
    exact ⟨fs, grown⟩

end Sys2Proof.Machine
end

section
/-! PROOFS. TEST-START and TEST-STOP (R38, R170, R183, R189). -/

namespace Sys2Proof.Machine

/-! ### The values of the command -/

theorem Word.port?_eq {w : Word} {p : PortId} (h : w.toNat = p.val) : Word.port? w = some p := by
  unfold Word.port?
  rw [dif_pos (by omega)]
  exact congrArg some (Fin.ext h)

theorem Word.pattern?_eq (w : Word) : Word.pattern? w = [Pattern.off, .p7, .p23, .p31, .user][w.toNat]? := by
  unfold Word.pattern?
  match w.toNat with
  | 0 | 1 | 2 | 3 | 4 => rfl
  | n + 5 => simp

theorem Word.timebase?_eq (w : Word) :
    Word.timebase? w = [Timebase.continuous, .bits24, .bits32, .bits40][w.toNat]? := by
  unfold Word.timebase?
  match w.toNat with
  | 0 | 1 | 2 | 3 => rfl
  | n + 4 => simp

/-- The settings a TEST-START gives (R170, R183). -/
def givenTest (cmd : CmdCell) (gen chk : Pattern) (base : Timebase) : TestSettings :=
  { genPattern := gen, chkPattern := chk, genInvert := decide (cmd.param 4 ≠ 0), chkInvert := decide (cmd.param 5 ≠ 0),
    timebase := base, syncMask := decide (cmd.param 7 ≠ 0), user := cmd.param 8 ++ cmd.param 9 }

/-- A TEST-START that is not refused. -/
theorem doTestStart_accepts {cmd : CmdCell} {s : State} {p : PortId} {gen chk : Pattern} {base : Timebase}
    (hp : (cmd.param 1).toNat = p.val) (hg : Word.pattern? (cmd.param 2) = some gen)
    (hc : Word.pattern? (cmd.param 3) = some chk) (hb : Word.timebase? (cmd.param 6) = some base)
    (hl : (s.port p).link = .up → (s.port p).settings.mayCommand = true →
      ∃ q, q ≠ p ∧ (s.port q).link = .up ∧ (s.port q).settings.mayCommand = true) :
    doTestStart cmd s =
      .accept false [] (eventEnd s (s.leaveFor p (Port.enterTest (givenTest cmd gen chk base)) .test)) := by
  unfold doTestStart
  rw [Word.port?_eq hp, hg, hc, hb]
  change (if s.lastCommander p then _ else _) = _
  rw [State.lastCommander_eq_false hl]
  rfl

/-- A value that is read, whatever it is, does not keep a command from being refused for another one. -/
theorem withValue_refused {α : Type} (x : Option α) {s : State} {k : α → Reply}
    (h : ∀ a, k a = .refuse .badValue s) : withValue x s k = .refuse .badValue s := by
  cases x with
  | none => rfl
  | some a => exact h a

/-- A TEST-START with a code out of range (R170). -/
theorem doTestStart_badValue {cmd : CmdCell} {s : State}
    (h : 4 < (cmd.param 2).toNat ∨ 4 < (cmd.param 3).toNat ∨ 3 < (cmd.param 6).toNat) :
    doTestStart cmd s = .refuse .badValue s := by
  have pattern {w : Word} (hw : 4 < w.toNat) : Word.pattern? w = none := by
    rw [Word.pattern?_eq, List.getElem?_eq_none]
    exact hw
  have timebase {w : Word} (hw : 3 < w.toNat) : Word.timebase? w = none := by
    rw [Word.timebase?_eq, List.getElem?_eq_none]
    exact hw
  refine withValue_refused _ fun p => ?_
  rcases h with h | h | h
  · exact withValue_none _ s _ (pattern h)
  · exact withValue_refused _ fun gen => withValue_none _ s _ (pattern h)
  · exact withValue_refused _ fun gen => withValue_refused _ fun chk => withValue_none _ s _ (timebase h)

/-! ### The start of a test -/

/-- What the start of a test leaves of its port and of the lists, with the end of its event (R38, R183). -/
theorem State.startTest_ends {s t : State} {p : PortId} {u : TestSettings}
    (ht : t = eventEnd s (s.leaveFor p (Port.enterTest u) .test)) :
    (∀ {α : Type} (g : Port → α), (∀ P : Port, g P.plain = g P) →
      g (t.port p) = g ((s.port p).left (Port.enterTest u) .test)) ∧
    t.cmdQueue = s.cmdQueue ∧ (s.cmdUnit = .ready → t.cmdUnit = .ready ∧
      ∀ q, (t.port q).link = .up → ∃ fs, (t.port q).elements = (s.port q).elements ++ fs) := by
  subst ht
  obtain ⟨turned, hp⟩ := s.leaveFor_turns p .test (Port.enterTest_isEntry u)
  have lists := s.leaveFor_lists p (Port.enterTest u) .test
  obtain ⟨unit, queue, grow⟩ := eventEnd_lists s (s.leaveFor p (Port.enterTest u) .test)
  refine ⟨fun g hg => eventEnd_shows turned hp g hg, queue.trans lists.queue, fun ready =>
    ⟨unit.trans (lists.unit ready), fun q hq => ?_⟩⟩
  by_cases hqp : q = p
  · subst hqp
    rw [eventEnd_shows turned hp Port.link fun _ => rfl] at hq
    exact absurd hq (by decide : LinkState.test ≠ .up)
  · obtain ⟨fs, e⟩ := grow q
    exact ⟨fs, e.trans (by rw [lists.others ready q hqp])⟩

/-! ### The end of a test -/

/-- The port as a TEST-STOP leaves it (R38, R189). -/
def Port.stopped (P : Port) : Port :=
  if P.settings.enable then (Port.enterAcquiring { P with test := P.test.stop }).judged else P.enterDisabled

/-- A TEST-STOP of a port in TEST writes the port alone. -/
theorem State.stopTest_test {s : State} {p : PortId} (hl : (s.port p).link = .test) :
    s.stopTest p = s.updPort p Port.stopped := by
  have down : (s.port p).link ≠ .up := by rw [hl]; decide
  unfold State.stopTest Port.stopped
  rw [if_pos hl]
  split_ifs with he
  · have port := State.updPort_port_self s p fun P => { P with test := P.test.stop }
    have left := State.leaveFor_down (s := s.updPort p fun P => { P with test := P.test.stop }) (p := p)
      (by rw [port]; exact down) Port.enterAcquiring .test
    rw [State.toAcquiring, left, State.updPort_updPort, State.judgeFault_alone, State.updPort_updPort] <;>
      try rw [State.updPort_port_self]
    · refine State.updPort_congr s p ?_
      rw [if_pos he]
      exact congrArg Port.judged (Port.left_down (P := { s.port p with test := (s.port p).test.stop }) down _ _)
    · exact .inl (by decide : LinkState.acquiring ≠ .up)
  · rw [State.leaveFor_down down]
    refine State.updPort_congr s p ?_
    rw [if_neg he]
    exact Port.left_down down _ _

theorem Port.stopped_shows {P : Port} (hl : P.link = .test) :
    P.stopped.link = (if P.settings.enable then (if P.faultCause then .faulted else .acquiring) else .disabled) ∧
    P.stopped.test = { P.test with running := false, sync := .searching, badRun := 0 } ∧
    P.stopped.settings = P.settings ∧ P.stopped.lastDown = P.lastDown ∧ P.stopped.grants = P.grants ∧
    P.stopped.grantOutbox = P.grantOutbox ∧ P.stopped.elements = P.elements := by
  unfold Port.stopped
  by_cases he : P.settings.enable = true
  · have judged : (Port.enterAcquiring { P with test := P.test.stop }).judged =
        if P.faultCause then (Port.enterAcquiring { P with test := P.test.stop }).enterFaulted
        else Port.enterAcquiring { P with test := P.test.stop } := rfl
    rw [if_pos he, if_pos he, judged]
    cases P.faultCause <;> exact ⟨rfl, rfl, rfl, rfl, rfl, rfl, rfl⟩
  · rw [if_neg he, if_neg he]
    refine ⟨rfl, ?_, rfl, rfl, rfl, rfl, rfl⟩
    change (if P.link = .test then P.test.stop else P.test) = _
    rw [if_pos hl]
    rfl

/-- Settles O56: the start of a test is a port-down where the port is UP, and its end writes the port alone. -/
theorem testsStartAndStop : Obligations.TestsStartAndStop := by
  rintro s cmd rest p P hp rfl
  set u := s.taken cmd rest with hu
  have credits q : ∃ h o, u.port q = { s.port q with held := h, owed := o } := s.taken_shows cmd rest q
  obtain ⟨h, o, e⟩ := credits p
  refine ⟨fun ready gen chk base hg hc hb hl => ?_, fun ready hl => ?_, fun ready hl => ?_, fun ready hbad => ?_⟩
  · have accepts := doTestStart_accepts (s := u) hp ((Word.pattern?_eq _).trans hg) ((Word.pattern?_eq _).trans hc)
      ((Word.timebase?_eq _).trans hb) fun hup hmay => by
        simp only [hu, (s.taken_port cmd rest _).1, (s.taken_port cmd rest _).2] at hup hmay ⊢
        exact hl hup hmay
    generalize ht : eventEnd u (u.leaveFor p (Port.enterTest (givenTest cmd gen chk base)) .test) = t at accepts
    obtain ⟨shows, queue, lists⟩ := State.startTest_ends ht.symm
    have run : exec .testStart s = .next (t.responded cmd.src (responseFrame cmd.frame .done [])) :=
      congrArg Host.Outcome.next (commandStep_answers ready accepts)
    obtain ⟨unit, grow⟩ := lists ready.unit
    rw [e] at shows
    refine ⟨t, run, shows Port.link fun _ => rfl, unit,
      fun hsrc => ?_, shows Port.lastDown fun _ => rfl, shows Port.settings fun _ => rfl,
      shows Port.alignCount fun _ => rfl, shows Port.failCount fun _ => rfl, shows Port.partnerAligned fun _ => rfl,
      shows Port.holds fun _ => rfl, ?_⟩
    · obtain ⟨h', o', e'⟩ := credits cmd.src
      obtain ⟨fs, grown⟩ := grow cmd.src hsrc
      rw [e'] at grown
      exact ⟨fs, grown⟩
    · rw [shows Port.test fun _ => rfl]
      exact ⟨rfl, rfl, rfl, rfl, rfl, rfl, rfl, rfl, rfl, rfl, queue⟩
  · have hlu : (u.port p).link = .test := (s.taken_port cmd rest p).1.trans hl
    have stops : doTestStop cmd u = .accept false [] (eventEnd u (u.stopTest p)) := by
      unfold doTestStop
      rw [Word.port?_eq hp]
      rfl
    obtain ⟨link, test, settings, lastDown, grants, outbox, elements⟩ := Port.stopped_shows hlu
    obtain ⟨fs, m, n, port⟩ := eventEnd_alone_port grants outbox
    obtain ⟨dids, queue, -⟩ := eventEnd_alone_rest grants outbox
    obtain ⟨unit, -, grow⟩ := eventEnd_lists u (u.updPort p Port.stopped)
    rw [State.stopTest_test hlu] at stops
    generalize eventEnd u (u.updPort p Port.stopped) = t at *
    have run : exec .testStop s = .next (t.responded cmd.src (responseFrame cmd.frame .done [])) :=
      congrArg Host.Outcome.next (commandStep_answers ready stops)
    refine ⟨t, run, unit.trans ready.unit, ?_, ?_, ?_, ?_, ?_, dids, queue⟩
    · obtain ⟨h', o', e'⟩ := credits cmd.src
      obtain ⟨gs, grown⟩ := grow cmd.src
      have same : ((u.updPort p Port.stopped).port cmd.src).elements = (s.port cmd.src).elements := by
        rw [State.updPort_port]
        split_ifs with hq
        · rw [hq, elements, e]
        · rw [e']
      exact ⟨gs, by rw [grown, same]⟩
    · rw [port, link, e]; rfl
    · rw [port, test, e]
    · rw [port, settings, e]
    · rw [port, lastDown, e]
  · have hlu : (u.port p).link ≠ .test := by rwa [(s.taken_port cmd rest p).1]
    have stops : doTestStop cmd u = .accept false [] u := by
      unfold doTestStop
      rw [Word.port?_eq hp]
      change Reply.accept false [] (eventEnd u (u.stopTest p)) = _
      rw [State.stopTest, if_neg hlu, eventEnd_self]
    exact congrArg Host.Outcome.next (commandStep_answers ready stops)
  · exact exec_refused ready (by decide) (doTestStart_badValue hbad)

end Sys2Proof.Machine
end

section
/-! PROOFS. The records, bids and refusals of a port-down: what stays gone, and which refusals the sources draw (R69, R85,
R86, R87). -/

namespace Sys2Proof.Machine

/-! ### What stays gone -/

/-- `Q` holds no record, train or member of a snapshot that `P` did not hold. -/
structure Port.Wanes (P Q : Port) : Prop where
  grants : ∀ d c, P.grant d c = none → Q.grant d c = none
  trains : ∀ d c, P.train d c = .idle → Q.train d c = .idle
  mcTrains : ∀ c, P.mcTrains.get c = ⟨.idle, 0⟩ → Q.mcTrains.get c = ⟨.idle, 0⟩
  snapshots : ∀ c d, DidSet.has (P.mcTrains.get c).snapshot d = false → DidSet.has (Q.mcTrains.get c).snapshot d = false

/-- The refusals of `P` stand in `Q`, and none was lost uncounted (R69). -/
structure Port.Refuses (P Q : Port) : Prop where
  box : P.refusalOutbox <+: Q.refusalOutbox
  lost : P.counters.refusalLost.toNat ≤ Q.counters.refusalLost.toNat

/-- Between `s` and `t` records, bids and trains end, and ports other than `p` get refusals. -/
structure State.Wanes (s : State) (p : PortId) (t : State) : Prop where
  port : ∀ q, (s.port q).Wanes (t.port q)
  bids : ∀ d c q, bidOf q (s.bids d c) = none → bidOf q (t.bids d c) = none
  refuses : ∀ q, q ≠ p → (s.port q).Refuses (t.port q)

theorem Port.Wanes.refl (P : Port) : P.Wanes P := ⟨fun _ _ => id, fun _ _ => id, fun _ => id, fun _ _ => id⟩

/-- The records alone, with the trains of both tables as they were. -/
theorem Port.Wanes.ofGrants {P Q : Port} (h : ∀ d c, P.grant d c = none → Q.grant d c = none)
    (ht : Q.trains = P.trains) (hm : Q.mcTrains = P.mcTrains) : P.Wanes Q :=
  ⟨h, fun _ _ => by unfold Port.train; rw [ht]; exact id, fun _ => by rw [hm]; exact id,
    fun _ _ => by rw [hm]; exact id⟩

/-- The trains alone, with the records as they were. -/
theorem Port.Wanes.ofTrains {P Q : Port} (hg : Q.grants = P.grants) (ht : ∀ d c, P.train d c = .idle → Q.train d c = .idle)
    (hm : Q.mcTrains = P.mcTrains) : P.Wanes Q :=
  ⟨fun _ _ => by unfold Port.grant; rw [hg]; exact id, ht, fun _ => by rw [hm]; exact id, fun _ _ => by rw [hm]; exact id⟩

/-- The multicast trains alone. -/
theorem Port.Wanes.ofMcTrains {P Q : Port} (hg : Q.grants = P.grants) (ht : Q.trains = P.trains)
    (hm : ∀ c, P.mcTrains.get c = ⟨.idle, 0⟩ → Q.mcTrains.get c = ⟨.idle, 0⟩)
    (hs : ∀ c d, DidSet.has (P.mcTrains.get c).snapshot d = false → DidSet.has (Q.mcTrains.get c).snapshot d = false) :
    P.Wanes Q :=
  ⟨fun _ _ => by unfold Port.grant; rw [hg]; exact id, fun _ _ => by unfold Port.train; rw [ht]; exact id, hm, hs⟩

theorem Port.Wanes.ofEq {P Q : Port} (hg : Q.grants = P.grants) (ht : Q.trains = P.trains) (hm : Q.mcTrains = P.mcTrains) :
    P.Wanes Q :=
  .ofGrants (fun _ _ => by unfold Port.grant; rw [hg]; exact id) ht hm

theorem Port.Wanes.trans {P Q R : Port} (h : P.Wanes Q) (k : Q.Wanes R) : P.Wanes R :=
  ⟨fun d c x => k.grants d c (h.grants d c x), fun d c x => k.trains d c (h.trains d c x),
    fun c x => k.mcTrains c (h.mcTrains c x), fun c d x => k.snapshots c d (h.snapshots c d x)⟩

theorem Port.Refuses.refl (P : Port) : P.Refuses P := ⟨List.prefix_refl _, Nat.le_refl _⟩

theorem Port.Refuses.ofEq {P Q : Port} (hb : Q.refusalOutbox = P.refusalOutbox)
    (hl : Q.counters.refusalLost = P.counters.refusalLost) : P.Refuses Q := by
  refine ⟨?_, ?_⟩
  · rw [hb]
  · rw [hl]

theorem Port.Refuses.trans {P Q R : Port} (h : P.Refuses Q) (k : Q.Refuses R) : P.Refuses R :=
  ⟨h.box.trans k.box, h.lost.trans k.lost⟩

namespace State.Wanes

variable {s t u : State} {p : PortId}

theorem refl (s : State) (p : PortId) : s.Wanes p s := ⟨fun _ => .refl _, fun _ _ _ => id, fun _ _ => .refl _⟩

theorem trans (h : s.Wanes p t) (k : t.Wanes p u) : s.Wanes p u :=
  ⟨fun q => (h.port q).trans (k.port q), fun d c q x => k.bids d c q (h.bids d c q x),
    fun q hq => (h.refuses q hq).trans (k.refuses q hq)⟩

theorem foldl {α : Type} {f : State → α → State} (h : ∀ (t : State) (x : α), t.Wanes p (f t x)) (s : State)
    (xs : List α) : s.Wanes p (xs.foldl f s) := by
  induction xs generalizing s with
  | nil => exact refl s p
  | cons x xs ih => exact (h s x).trans (ih (f s x))

/-- A view that shows records, trains, bids and refusals. -/
theorem ofKeeps {V : View} (h : s.Keeps V t) (grants : ∀ P : Port, (V.port P).grants = P.grants)
    (trains : ∀ P : Port, (V.port P).trains = P.trains) (mcTrains : ∀ P : Port, (V.port P).mcTrains = P.mcTrains)
    (box : ∀ P : Port, (V.port P).refusalOutbox = P.refusalOutbox)
    (lost : ∀ P : Port, (V.port P).counters.refusalLost = P.counters.refusalLost)
    (bids : ∀ D : DidState, (V.did D).bids = D.bids) : s.Wanes p t where
  port q := .ofEq (h.portField Port.grants grants q) (h.portField Port.trains trains q) (h.portField Port.mcTrains mcTrains q)
  bids d c q := by unfold State.bids; rw [h.didField DidState.bids bids d]; exact id
  refuses q _ := .ofEq (h.portField Port.refusalOutbox box q) (h.portField (fun P => P.counters.refusalLost) lost q)

theorem updPort (s : State) (q : PortId) {f : Port → Port} (h : (s.port q).Wanes (f (s.port q)))
    (hr : q ≠ p → (s.port q).Refuses (f (s.port q))) : s.Wanes p (s.updPort q f) where
  port x := by
    rw [State.updPort_port]
    split_ifs with hx
    · rw [hx]; exact h
    · exact .refl _
  bids d c x := id
  refuses x hx := by
    rw [State.updPort_port]
    split_ifs with e
    · rw [e] at hx ⊢; exact hr hx
    · exact .refl _

theorem mapPorts (s : State) {f : PortId → Port → Port} (h : ∀ q (P : Port), P.Wanes (f q P))
    (hr : ∀ q (P : Port), P.Refuses (f q P)) : s.Wanes p (s.mapPorts f) where
  port q := by rw [State.mapPorts_port]; exact h q _
  bids d c q := by unfold State.bids; rw [State.mapPorts_did]; exact id
  refuses q _ := by rw [State.mapPorts_port]; exact hr q _

theorem updDid (s : State) (d : Did) {f : DidState → DidState}
    (h : ∀ c q, bidOf q ((s.did d).bids.get c) = none → bidOf q ((f (s.did d)).bids.get c) = none) :
    s.Wanes p (s.updDid d f) where
  port q := by rw [State.updDid_port]; exact .refl _
  bids e c q x := by
    unfold State.bids at *
    rw [State.updDid_did]
    split_ifs with he
    · subst he; exact h c q x
    · exact x
  refuses q _ := by rw [State.updDid_port]; exact .refl _

end State.Wanes

/-! ### Refusals -/

/-- A counter raised by one has grown, or stands at its top value (R179). -/
theorem countUp_grows (c : BitVec 32) : c.toNat < (countUp c).toNat ∨ countUp c = BitVec.allOnes 32 := by
  unfold countUp
  split_ifs with h
  · exact .inr h
  · have hlt := c.isLt
    have : c.toNat ≠ 2 ^ 32 - 1 := fun e => h (BitVec.eq_of_toNat_eq (by simpa using e))
    refine .inl ?_
    rw [BitVec.toNat_add_of_lt (by simp; omega)]
    simp

theorem State.refuse_wanes (s : State) (p q : PortId) (r : RefusalEntry) : s.Wanes p (s.refuse q r) := by
  obtain ⟨-, e⟩ | ⟨-, -, -, e⟩ | ⟨-, -, -, e⟩ := s.refuse_cases q r <;> rw [e]
  · exact .refl s p
  · exact .updPort s q (.ofEq rfl rfl rfl) fun _ => ⟨List.prefix_refl _, countUp_toNat _⟩
  · exact .updPort s q (.ofEq rfl rfl rfl) fun _ => ⟨List.prefix_append _ _, Nat.le_refl _⟩

theorem State.RefusedOrLost.later {s t u : State} {p q : PortId} {r : RefusalEntry} (hq : q ≠ p)
    (h : s.RefusedOrLost t q r) (k : t.Wanes p u) : s.RefusedOrLost u q r := by
  have refuses := k.refuses q hq
  rcases h with h | ⟨hb, hl⟩
  · exact .inl (refuses.box.subset h)
  · refine .inr ⟨hb.trans refuses.box.length_le, hl.imp (fun h => h.trans_le refuses.lost) fun h => ?_⟩
    have low := refuses.lost
    rw [h] at low
    have high := (u.port q).counters.refusalLost.isLt
    exact BitVec.eq_of_toNat_eq (by simp at low ⊢; omega)

theorem State.RefusedOrLost.earlier {s t u : State} {p q : PortId} {r : RefusalEntry} (hq : q ≠ p)
    (h : t.RefusedOrLost u q r) (k : s.Wanes p t) : s.RefusedOrLost u q r :=
  h.imp_right fun ⟨hb, hl⟩ => ⟨hb, hl.imp_left fun h => (k.refuses q hq).lost.trans_lt h⟩

/-- A refusal to a port in UP stands in its outbox, or was lost at a full one (R69). -/
theorem State.refuse_answers (s : State) {q : PortId} (r : RefusalEntry) (hu : s.isUp q = true) :
    s.RefusedOrLost (s.refuse q r) q r := by
  obtain ⟨h | h, e⟩ | ⟨-, -, hb, e⟩ | ⟨-, -, -, e⟩ := s.refuse_cases q r <;> rw [e]
  · rw [hu] at h; cases h
  · exact .inl h
  · refine .inr ⟨?_, ?_⟩ <;> rw [State.countPort, State.updPort_port_self]
    · exact hb
    · exact countUp_grows _
  · refine .inl ?_
    rw [State.updPort_port_self]
    exact List.mem_append_right _ (List.mem_singleton.2 rfl)

/-! ### Answers to the sources -/

/-- Between `s` and `t` a source in UP, other than `p`, that lost a record has drawn REVOKED, and one that lost a bid
DEST_DOWN (R86, R87). -/
structure State.Answers (s : State) (p : PortId) (t : State) : Prop where
  wanes : s.Wanes p t
  up : ∀ q, t.isUp q = s.isUp q
  revoked : ∀ q d c, q ≠ p → s.isUp q = true → s.grant q d c ≠ none →
    t.grant q d c ≠ none ∨ s.RefusedOrLost t q ⟨c, d, .revoked⟩
  downed : ∀ q d c, q ≠ p → s.isUp q = true → bidOf q (s.bids d c) ≠ none →
    bidOf q (t.bids d c) ≠ none ∨ s.RefusedOrLost t q ⟨c, d, .destDown⟩

namespace State.Answers

variable {s t u : State} {p : PortId}

theorem refl (s : State) (p : PortId) : s.Answers p s :=
  ⟨.refl s p, fun _ => rfl, fun _ _ _ _ _ => .inl, fun _ _ _ _ _ => .inl⟩

theorem trans (h : s.Answers p t) (k : t.Answers p u) : s.Answers p u where
  wanes := h.wanes.trans k.wanes
  up q := (k.up q).trans (h.up q)
  revoked q d c hq hu hg := by
    rcases h.revoked q d c hq hu hg with hg | hr
    · exact (k.revoked q d c hq (by rw [h.up]; exact hu) hg).imp_right fun x => x.earlier hq h.wanes
    · exact .inr (hr.later hq k.wanes)
  downed q d c hq hu hb := by
    rcases h.downed q d c hq hu hb with hb | hr
    · exact (k.downed q d c hq (by rw [h.up]; exact hu) hb).imp_right fun x => x.earlier hq h.wanes
    · exact .inr (hr.later hq k.wanes)

theorem foldl {α : Type} {f : State → α → State} (h : ∀ (t : State) (x : α), t.Answers p (f t x)) (s : State)
    (xs : List α) : s.Answers p (xs.foldl f s) := by
  induction xs generalizing s with
  | nil => exact refl s p
  | cons x xs ih => exact (h s x).trans (ih (f s x))

/-- A step that takes neither records nor bids from ports other than `p`. -/
theorem ofKept (wanes : s.Wanes p t) (up : ∀ q, t.isUp q = s.isUp q)
    (grant : ∀ q d c, q ≠ p → t.grant q d c = s.grant q d c)
    (bid : ∀ q d c, q ≠ p → bidOf q (t.bids d c) = bidOf q (s.bids d c)) : s.Answers p t :=
  ⟨wanes, up, fun q d c hq _ h => .inl (by rwa [grant q d c hq]), fun q d c hq _ h => .inl (by rwa [bid q d c hq])⟩

end State.Answers

theorem State.refuse_answered (s : State) (p q : PortId) (r : RefusalEntry) : s.Answers p (s.refuse q r) := by
  refine .ofKept (s.refuse_wanes p q r) (fun x => (s.refuse_calm q r).isUp x) (fun x d c _ => ?_) fun x d c _ => ?_
  · unfold State.grant Port.grant
    rw [(s.refuse_keepsRefusals q r).portField Port.grants (fun _ => rfl) x]
  · obtain ⟨-, e⟩ | ⟨-, -, -, e⟩ | ⟨-, -, -, e⟩ := s.refuse_cases q r <;> rw [e] <;> rfl

end Sys2Proof.Machine
end

section
/-! PROOFS. The share of the grant engine in a port-down (R85 to R87). -/

namespace Sys2Proof.Machine

/-! ### Records closed -/

theorem State.updUsage_wanes (s : State) (p : PortId) (d : Did) (c : GClass) (f : Usage → Usage) :
    s.Wanes p (s.updUsage d c f) := by
  unfold State.updUsage State.setUsage
  exact .updDid s d fun _ _ => id

theorem State.updUsage_port (s : State) (d : Did) (c : GClass) (f : Usage → Usage) (q : PortId) :
    (s.updUsage d c f).port q = s.port q := by
  unfold State.updUsage State.setUsage
  exact s.updDid_port d _ q

theorem State.closeGrant_wanes (s : State) (p q : PortId) (d : Did) (c : GClass) : s.Wanes p (s.closeGrant q d c) := by
  obtain ⟨-, e⟩ | ⟨g, -, e⟩ := s.closeGrant_cases q d c <;> rw [e]
  · exact .refl s p
  · have closed (t : State) : t.Wanes p (t.setGrant q d c none) :=
      .updPort t q (.ofGrants (fun d' c' h => by
        rw [Port.setGrant_grant]
        split_ifs
        · rfl
        · exact h) rfl rfl) fun _ => .ofEq rfl rfl
    have withdrawn (t : State) : t.Wanes p (t.updOutbox q (outboxWithout d c)) :=
      .updPort t q (.ofEq rfl rfl rfl) fun _ => .ofEq rfl rfl
    exact (s.updUsage_wanes p d c _).trans ((closed _).trans (withdrawn _))

/-- The records after one is closed (R71). -/
theorem State.closeGrant_grant (s : State) (q : PortId) (d : Did) (c : GClass) (x : PortId) (e : Did) (g : GClass) :
    (s.closeGrant q d c).grant x e g = if x = q ∧ d = e ∧ c = g then none else s.grant x e g := by
  obtain ⟨hn, closed⟩ | ⟨r, -, closed⟩ := s.closeGrant_cases q d c <;> rw [closed]
  · split_ifs with h
    · obtain ⟨rfl, rfl, rfl⟩ := h
      exact hn
    · rfl
  · unfold State.grant State.updOutbox State.setGrant
    rw [State.updPort_updPort, State.updPort_port]
    by_cases hx : x = q
    · subst hx
      rw [if_pos rfl, State.updUsage_port]
      change ((s.port x).setGrant d c none).grant e g = _
      rw [Port.setGrant_grant]
      by_cases h : d = e ∧ c = g
      · rw [if_pos h, if_pos ⟨rfl, h⟩]
      · rw [if_neg h, if_neg fun k => h k.2]
    · rw [if_neg hx, if_neg fun k => hx k.1, State.updUsage_port]

theorem State.closeGrant_bids (s : State) (q : PortId) (d : Did) (c : GClass) (e : Did) (g : GClass) :
    (s.closeGrant q d c).bids e g = s.bids e g := by
  obtain ⟨-, closed⟩ | ⟨r, -, closed⟩ := s.closeGrant_cases q d c <;> rw [closed]
  rw [State.updOutbox_bids, State.setGrant_bids, State.updUsage_bids]

theorem State.refuse_grant (s : State) (q : PortId) (r : RefusalEntry) (x : PortId) (e : Did) (g : GClass) :
    (s.refuse q r).grant x e g = s.grant x e g := by
  unfold State.grant Port.grant
  rw [(s.refuse_keepsRefusals q r).portField Port.grants (fun _ => rfl) x]

theorem State.refuse_bids (s : State) (q : PortId) (r : RefusalEntry) (e : Did) (g : GClass) :
    (s.refuse q r).bids e g = s.bids e g := by
  obtain ⟨-, h⟩ | ⟨-, -, -, h⟩ | ⟨-, -, -, h⟩ := s.refuse_cases q r <;> rw [h] <;> rfl

/-- One source revoked: its record of (d, c) alone is gone (R86). -/
theorem State.revokeOne_grant (s : State) (d : Did) (c : GClass) (q x : PortId) (e : Did) (g : GClass) :
    (s.revokeOne d c q).grant x e g = if x = q ∧ d = e ∧ c = g then none else s.grant x e g := by
  unfold State.revokeOne
  split
  · next hn =>
    split_ifs with h
    · obtain ⟨rfl, rfl, rfl⟩ := h
      exact hn
    · rfl
  · rw [State.refuse_grant, State.closeGrant_grant]

theorem State.revokeOne_bids (s : State) (d : Did) (c : GClass) (q : PortId) (e : Did) (g : GClass) :
    (s.revokeOne d c q).bids e g = s.bids e g := by
  unfold State.revokeOne
  split
  · rfl
  · rw [State.refuse_bids, State.closeGrant_bids]

theorem State.revokeOne_answers (s : State) (p : PortId) (d : Did) (c : GClass) (q : PortId) :
    s.Answers p (s.revokeOne d c q) := by
  have grant := s.revokeOne_grant d c q
  have bids := s.revokeOne_bids d c q
  unfold State.revokeOne at *
  cases hg : s.grant q d c with
  | none => exact .refl s p
  | some r =>
    simp only [hg] at grant bids ⊢
    have closed := s.closeGrant_wanes p q d c
    have up (x : PortId) : (s.closeGrant q d c).isUp x = s.isUp x := (s.closeGrant_calm q d c).isUp x
    have refused := (s.closeGrant q d c).refuse_answered p q ⟨c, d, .revoked⟩
    refine ⟨closed.trans refused.wanes, fun x => (refused.up x).trans (up x), fun x e g _ hu h => ?_,
      fun x e g _ _ h => .inl (by rwa [bids])⟩
    by_cases key : x = q ∧ d = e ∧ c = g
    · obtain ⟨rfl, rfl, rfl⟩ := key
      exact .inr (((s.closeGrant x d c).refuse_answers _ (by rw [up]; exact hu)).earlier (by assumption) closed)
    · rw [grant, if_neg key]
      exact .inl h

/-! ### Bids removed -/

/-- The refusals to a list of sources. -/
theorem State.refuse_all (s : State) (p : PortId) (r : RefusalEntry) (es : List BidEntry) {e : BidEntry} (he : e ∈ es)
    (hp : e.src ≠ p) (hu : s.isUp e.src = true) :
    s.RefusedOrLost (es.foldl (fun t e => t.refuse e.src r) s) e.src r := by
  obtain ⟨before, after, rfl⟩ := List.append_of_mem he
  have answered (t : State) (xs : List BidEntry) : t.Answers p (xs.foldl (fun t e => t.refuse e.src r) t) :=
    .foldl (fun t e => t.refuse_answered p e.src r) t xs
  rw [List.foldl_append, List.foldl_cons]
  have first := answered s before
  refine State.RefusedOrLost.later hp ?_ (answered _ after).wanes
  exact (State.refuse_answers _ r (by rw [first.up]; exact hu)).earlier hp first.wanes

theorem State.setBids_bids (s : State) (d : Did) (c : GClass) (bs : List BidEntry) (e : Did) (g : GClass) :
    (s.setBids d c bs).bids e g = if d = e ∧ c = g then bs else s.bids e g := by
  unfold State.bids State.setBids
  rw [State.updDid_did]
  by_cases he : e = d
  · subst he
    rw [if_pos rfl]
    by_cases hc : g = c
    · subst hc
      rw [if_pos ⟨rfl, rfl⟩, PerG.get_set_self]
    · rw [if_neg fun k => hc k.2.symm, PerG.get_set_ne _ _ hc]
  · rw [if_neg he, if_neg fun k => he k.1.symm]

theorem State.refusals_bids (s : State) (r : RefusalEntry) (es : List BidEntry) (e : Did) (g : GClass) :
    (es.foldl (fun t e => t.refuse e.src r) s).bids e g = s.bids e g := by
  induction es generalizing s with
  | nil => rfl
  | cons x es ih => rw [List.foldl_cons, ih, State.refuse_bids]

theorem State.refusals_grant (s : State) (r : RefusalEntry) (es : List BidEntry) (x : PortId) (e : Did) (g : GClass) :
    (es.foldl (fun t e => t.refuse e.src r) s).grant x e g = s.grant x e g := by
  induction es generalizing s with
  | nil => rfl
  | cons y es ih => rw [List.foldl_cons, ih, State.refuse_grant]

theorem State.removeBids_bids (s : State) (d : Did) (c : GClass) (why : Reason) (e : Did) (g : GClass) :
    (s.removeBids d c why).bids e g = if d = e ∧ c = g then [] else s.bids e g := by
  unfold State.removeBids
  rw [State.setBids_bids, State.refusals_bids]

theorem State.removeBids_grant (s : State) (d : Did) (c : GClass) (why : Reason) (x : PortId) (e : Did) (g : GClass) :
    (s.removeBids d c why).grant x e g = s.grant x e g :=
  s.refusals_grant _ _ x e g

theorem State.removeBids_wanes (s : State) (p : PortId) (d : Did) (c : GClass) (why : Reason) :
    s.Wanes p (s.removeBids d c why) := by
  have cleared (t : State) : t.Wanes p (t.setBids d c []) := by
    refine .updDid t d fun g q h => ?_
    by_cases hc : g = c
    · subst hc
      rw [PerG.get_set_self]
      rfl
    · rw [PerG.get_set_ne _ _ hc]
      exact h
  exact (State.Wanes.foldl (fun t (e : BidEntry) => t.refuse_wanes p e.src _) s _).trans (cleared _)

theorem State.removeBids_answers (s : State) (p : PortId) (d : Did) (c : GClass) :
    s.Answers p (s.removeBids d c .destDown) := by
  refine ⟨s.removeBids_wanes p d c _, fun q => (s.removeBids_calm d c _).isUp q, fun x e g _ _ h => .inl ?_,
    fun x e g hx hu h => ?_⟩
  · rwa [State.removeBids_grant]
  · rw [State.removeBids_bids]
    split_ifs with key
    · obtain ⟨rfl, rfl⟩ := key
      right
      obtain ⟨b, hb⟩ := Option.ne_none_iff_exists'.1 h
      have src : b.src = x := by simpa using List.find?_some hb
      subst src
      exact s.refuse_all p ⟨c, d, .destDown⟩ _ (List.mem_of_find?_eq_some hb) hx hu
    · exact .inl h

/-! ### The DIDs of the port that went down -/

/-- What one step of a list brings about, and the others keep, stands at the end. -/
theorem foldl_reaches {α : Type} {f : State → α → State} {φ : State → Prop} {x : α} (reaches : ∀ t, φ (f t x))
    (kept : ∀ t y, φ t → φ (f t y)) {xs : List α} (hx : x ∈ xs) (s : State) : φ (xs.foldl f s) := by
  obtain ⟨before, after, rfl⟩ := List.append_of_mem hx
  rw [List.foldl_append, List.foldl_cons]
  generalize before.foldl f s = t
  have start := reaches t
  generalize f t x = u at start
  clear hx
  induction after generalizing u with
  | nil => exact start
  | cons y ys ih => exact ih (f u y) (kept u y start)

theorem mem_classes (c : GClass) : c ∈ GClass.all := by cases c <;> decide

theorem mem_allPorts (q : PortId) : q ∈ allPorts := List.mem_finRange q

theorem State.revokeClass_answers (s : State) (p : PortId) (d : Did) (c : GClass) : s.Answers p (s.revokeClass d c) :=
  .foldl (fun t q => t.revokeOne_answers p d c q) s allPorts

theorem State.revokeClass_grant (s : State) (d : Did) (c : GClass) (q : PortId) : (s.revokeClass d c).grant q d c = none := by
  refine foldl_reaches (φ := fun t => t.grant q d c = none) (x := q) (fun t => ?_) (fun t y h => ?_) (mem_allPorts q) s
  · rw [State.revokeOne_grant, if_pos ⟨rfl, rfl, rfl⟩]
  · rw [State.revokeOne_grant]
    split_ifs
    · rfl
    · exact h

theorem State.grantDestDown_answers (s : State) (p : PortId) (d : Did) : s.Answers p (s.grantDestDown d) :=
  .foldl (fun t c => (t.revokeClass_answers p d c).trans (State.removeBids_answers _ p d c)) s _

/-- A DID of the port that went down has no record and no bid (R87). -/
theorem State.grantDestDown_empties (s : State) (d : Did) (c : GClass) :
    (∀ q, (s.grantDestDown d).grant q d c = none) ∧ ∀ q, bidOf q ((s.grantDestDown d).bids d c) = none := by
  refine foldl_reaches (φ := fun t => (∀ q, t.grant q d c = none) ∧ ∀ q, bidOf q (t.bids d c) = none) (x := c)
    (fun t => ⟨fun q => ?_, fun q => ?_⟩) (fun t y h => ?_) (mem_classes c) s
  · rw [State.removeBids_grant, State.revokeClass_grant]
  · rw [State.removeBids_bids, if_pos ⟨rfl, rfl⟩]
    rfl
  · have w := ((t.revokeClass_answers 0 d y).trans (State.removeBids_answers _ 0 d y)).wanes
    exact ⟨fun q => (w.port q).grants d c (h.1 q), fun q => w.bids d c q (h.2 q)⟩

theorem State.grantSourceDown_wanes (s : State) (p : PortId) : s.Wanes p (s.grantSourceDown p) where
  port q := by
    unfold State.grantSourceDown
    dsimp only
    rw [State.updPort_port, State.mapDids_port]
    split_ifs with h
    · subst h
      exact .ofGrants (fun d c _ => by unfold Port.grant; rw [tabMap_get, PerG.get_const]) rfl rfl
    · exact .refl _
  bids d c q h := by
    unfold State.grantSourceDown State.bids at *
    rw [State.updPort_did, State.mapDids_did, PerG.get_map, bidOf_eq_none]
    exact fun e he => (bidOf_eq_none q _).1 h e (bidsWithout_src he)
  refuses q hq := by
    unfold State.grantSourceDown
    dsimp only
    rw [State.updPort_port_ne _ _ hq, State.mapDids_port]
    exact .refl _

theorem bidOf_bidsWithout {p q : PortId} (hq : q ≠ p) (bs : List BidEntry) : bidOf q (bidsWithout p bs) = bidOf q bs := by
  unfold bidOf bidsWithout
  rw [List.find?_filter]
  congr 1
  funext e
  by_cases h : e.src = q
  · simp [h, hq]
  · simp [h]

theorem State.grantSourceDown_answers (s : State) (p : PortId) : s.Answers p (s.grantSourceDown p) := by
  refine .ofKept (s.grantSourceDown_wanes p) (fun q => (s.grantSourceDown_calm p).1.isUp q) (fun q d c hq => ?_)
    fun q d c hq => ?_
  · unfold State.grant State.grantSourceDown
    dsimp only
    rw [State.updPort_port_ne _ _ hq, State.mapDids_port]
  · unfold State.grantSourceDown State.bids
    rw [State.updPort_did, State.mapDids_did, PerG.get_map, bidOf_bidsWithout hq]

theorem State.recordsDown_answers (s : State) (p : PortId) : s.Answers p (s.recordsDown p) :=
  (s.grantSourceDown_answers p).trans (.foldl (fun t d => t.grantDestDown_answers p d) _ _)

theorem State.mem_didsOf (s : State) (p : PortId) (d : Did) : d ∈ s.didsOf p ↔ s.mapsTo d p = true := by
  unfold State.didsOf
  rw [List.mem_filter]
  exact and_iff_right (List.mem_finRange d)

theorem State.recordsDown_empties (s : State) (p : PortId) {d : Did} (hd : s.mapsTo d p = true) (c : GClass) :
    (∀ q, (s.recordsDown p).grant q d c = none) ∧ ∀ q, bidOf q ((s.recordsDown p).bids d c) = none :=
  foldl_reaches (φ := fun t => (∀ q, t.grant q d c = none) ∧ ∀ q, bidOf q (t.bids d c) = none)
    (fun t => t.grantDestDown_empties d c)
    (fun t y h =>
      have w := (t.grantDestDown_answers 0 y).wanes
      ⟨fun q => (w.port q).grants d c (h.1 q), fun q => w.bids d c q (h.2 q)⟩)
    ((s.mem_didsOf p d).2 hd) _

/-! ### Unsent grants -/

/-- Every unsent grant has its record (R77). -/
def State.Covered (s : State) : Prop := ∀ q, ∀ x ∈ (s.port q).grantOutbox, s.grant q x.did x.cls ≠ none

theorem State.Covered.ofKeeps {V : View} {s t : State} (h : s.Covered) (k : s.Keeps V t)
    (grants : ∀ P : Port, (V.port P).grants = P.grants) (box : ∀ P : Port, (V.port P).grantOutbox = P.grantOutbox) :
    t.Covered := by
  intro q x hx
  rw [k.portField Port.grantOutbox box q] at hx
  unfold State.grant Port.grant
  rw [k.portField Port.grants grants q]
  exact h q x hx

theorem State.Covered.closeGrant {s : State} (h : s.Covered) (q : PortId) (d : Did) (c : GClass) :
    (s.closeGrant q d c).Covered := by
  intro y x hx
  have grant := s.closeGrant_grant q d c y x.did x.cls
  obtain ⟨-, e⟩ | ⟨g, -, e⟩ := s.closeGrant_cases q d c
  · rw [e] at hx ⊢
    exact h y x hx
  · rw [grant]
    rw [e] at hx
    unfold State.updOutbox State.setGrant at hx
    rw [State.updPort_updPort, State.updPort_port] at hx
    by_cases hy : y = q
    · subst hy
      rw [if_pos rfl, State.updUsage_port] at hx
      obtain ⟨hx, hkey⟩ := List.mem_filter.1 (show x ∈ outboxWithout d c (s.port y).grantOutbox from hx)
      rw [if_neg ?_]
      · exact h y x hx
      · rintro ⟨-, rfl, rfl⟩
        simp [GrantEntry.isFor] at hkey
    · rw [if_neg hy, State.updUsage_port] at hx
      rw [if_neg fun k => hy k.1]
      exact h y x hx

theorem State.Covered.foldl {α : Type} {f : State → α → State} (h : ∀ (t : State) (x : α), t.Covered → (f t x).Covered)
    {s : State} (hs : s.Covered) (xs : List α) : (xs.foldl f s).Covered := by
  induction xs generalizing s with
  | nil => exact hs
  | cons x xs ih => exact ih (h s x hs)

theorem State.Covered.grantDestDown {s : State} (h : s.Covered) (d : Did) : (s.grantDestDown d).Covered := by
  refine .foldl (fun t c ht => ?_) h _
  have revoked : (t.revokeClass d c).Covered := by
    refine .foldl (fun u q hu => ?_) ht _
    unfold State.revokeOne
    split
    · exact hu
    · exact (hu.closeGrant q d c).ofKeeps (State.refuse_keepsRefusals _ q _) (fun _ => rfl) fun _ => rfl
  exact revoked.ofKeeps (State.removeBids_keepsRefusals _ d c _) (fun _ => rfl) fun _ => rfl

theorem State.Covered.recordsDown {s : State} (h : s.Covered) (p : PortId) : (s.recordsDown p).Covered := by
  refine .foldl (fun t d ht => ht.grantDestDown d) (fun q x hx => ?_) _
  unfold State.grantSourceDown State.grant at *
  dsimp only at hx ⊢
  rw [State.updPort_port, State.mapDids_port] at hx ⊢
  split_ifs at hx ⊢
  · cases hx
  · exact h q x hx

theorem State.GrantLaw.covered {s : State} (h : s.GrantLaw) : s.Covered := by
  intro q x hx
  obtain ⟨g, hg, -⟩ := (h.2 q).2 x hx
  rw [hg]
  exact Option.some_ne_none g

end Sys2Proof.Machine
end

section
/-! PROOFS. The markers of a port-down: made for the trains it ends, and owed ones placed by the stores its flush returns
(R100, R102, R104, R105). -/

namespace Sys2Proof.Machine

/-! ### Markers made -/

theorem State.placeMark_queue (s : State) (k : MarkerKey) (d : Did) (c : Cls) : (s.placeMark k).queue d c =
    s.queue d c ++ if k.did = d ∧ k.cls = c then [.mark k.src k.mc] else [] := by
  change (s.enqueue k.did k.cls (.mark k.src k.mc)).queue d c = _
  rw [State.enqueue_queue]
  congr 1
  by_cases h : k.did = d ∧ k.cls = c
  · obtain ⟨rfl, rfl⟩ := h
    rw [if_pos rfl, if_pos ⟨rfl, rfl⟩]
  · rw [if_neg h, if_neg fun e => h ⟨(Prod.mk.inj e).1.symm, (Prod.mk.inj e).2.symm⟩]

/-- The entries a list of keys brings to the queue (d, c). -/
def marksTo (d : Did) (c : Cls) (ks : List MarkerKey) : List QEntry :=
  (ks.filter fun k => decide (k.did = d ∧ k.cls = c)).map fun k => .mark k.src k.mc

theorem marksTo_append (d : Did) (c : Cls) (ks ls : List MarkerKey) :
    marksTo d c (ks ++ ls) = marksTo d c ks ++ marksTo d c ls := by
  unfold marksTo
  rw [List.filter_append, List.map_append]

theorem marksTo_cons (d : Did) (c : Cls) (k : MarkerKey) (ks : List MarkerKey) :
    marksTo d c (k :: ks) = (if k.did = d ∧ k.cls = c then [.mark k.src k.mc] else []) ++ marksTo d c ks := by
  unfold marksTo
  rw [List.filter_cons]
  by_cases h : k.did = d ∧ k.cls = c
  · rw [decide_eq_true h, if_pos rfl, if_pos h]
    rfl
  · rw [decide_eq_false h, if_neg h]
    rfl

theorem mem_marksTo {d : Did} {c : Cls} {ks : List MarkerKey} {e : QEntry} :
    e ∈ marksTo d c ks ↔ ∃ k ∈ ks, k.did = d ∧ k.cls = c ∧ e = .mark k.src k.mc := by
  unfold marksTo
  simp only [List.mem_map, List.mem_filter, decide_eq_true_eq]
  exact ⟨fun ⟨k, ⟨hk, hd, hc⟩, e⟩ => ⟨k, hk, hd, hc, e.symm⟩, fun ⟨k, hk, hd, hc, e⟩ => ⟨k, ⟨hk, hd, hc⟩, e.symm⟩⟩

/-- Different markers are placed while a store is free, and the rest are owed (R47, R100, R101). -/
theorem State.makeMarks_marked (s : State) {ks : List MarkerKey} (hn : ks.Nodup) : s.Marked (s.makeMarks ks) ks := by
  induction ks generalizing s with
  | nil =>
    rintro free -
    exact ⟨by simp [State.makeMarks], by simp [State.makeMarks], fun d c => by simp [State.makeMarks]⟩
  | cons k ks ih =>
    obtain ⟨hk, hn⟩ := List.nodup_cons.1 hn
    change s.Marked ((s.makeMark k).makeMarks ks) (k :: ks)
    rintro _ rfl
    obtain ⟨use, owed, queue⟩ := ih (s.makeMark k) hn _ rfl
    obtain ⟨hu, e⟩ | ⟨hu, hm, e⟩ | ⟨hu, hm, e⟩ := s.makeMark_cases k <;> rw [e] at use owed queue ⊢
    · have free : 64 - s.markerUse = (64 - (s.placeMark k).markerUse) + 1 := by
        change _ = 64 - (s.markerUse + 1) + 1
        omega
      rw [free, List.length_cons]
      refine ⟨?_, owed, fun d c => ?_⟩
      · rw [use]
        change s.markerUse + 1 + _ = _
        omega
      · rw [queue, State.placeMark_queue, List.append_assoc]
        exact congrArg _ (marksTo_cons d c k _).symm
    · have free : 64 - s.markerUse = 0 := by omega
      rw [free] at use owed queue ⊢
      refine ⟨by rw [Nat.min_zero] at use ⊢; exact use, ?_, queue⟩
      rw [owed, List.drop_zero, List.drop_zero, List.filter_cons, decide_eq_true hm]
      rfl
    · have free : 64 - s.markerUse = 0 := by omega
      change _ = s.markerUse + min ks.length (64 - s.markerUse) at use
      change _ = (s.owedMarkers ++ [k]) ++ (ks.drop (64 - s.markerUse)).filter
        (fun x => !decide (x ∈ s.owedMarkers ++ [k])) at owed
      change ∀ d c, _ = s.queue d c ++ marksTo d c (ks.take (64 - s.markerUse)) at queue
      rw [free] at use owed queue ⊢
      refine ⟨by rw [Nat.min_zero] at use ⊢; exact use, ?_, queue⟩
      rw [owed, List.append_assoc, List.drop_zero, List.drop_zero, List.filter_cons, decide_eq_false hm]
      refine congrArg _ (congrArg (k :: ·) (List.filter_congr fun x hx => ?_))
      have : x ≠ k := fun h => hk (h ▸ hx)
      simp [this]

/-! ### The keys of ended trains -/

/-- The order of R104: by DID, then by class, the unicast key first. -/
def MarkerKey.Before (a b : MarkerKey) : Prop :=
  a.did < b.did ∨ (a.did = b.did ∧ (a.cls.code < b.cls.code ∨ (a.cls = b.cls ∧ a.mc = false ∧ b.mc = true)))

theorem MarkerKey.Before.asymm {a b : MarkerKey} (h : a.Before b) : ¬ b.Before a := by
  have later {x y : MarkerKey} (h : x.did = y.did) : ¬ x.did < y.did := by rw [h]; exact lt_irrefl _
  rcases h with h | ⟨hd, h⟩ <;> rintro (k | ⟨kd, k⟩)
  · exact lt_asymm h k
  · exact later kd.symm h
  · exact later hd.symm k
  · rcases h with h | ⟨hc, ha, hb⟩ <;> rcases k with k | ⟨kc, ka, kb⟩
    · exact BitVec.lt_asymm h k
    · rw [kc] at h; exact BitVec.lt_irrefl _ h
    · rw [hc] at k; exact BitVec.lt_irrefl _ k
    · rw [ha] at kb; cases kb

theorem State.EndedTrains.nodup {s : State} {p : PortId} {ks : List MarkerKey} (h : s.EndedTrains p ks) : ks.Nodup :=
  List.Pairwise.imp (R := MarkerKey.Before) (fun {a b} hab e => by subst e; exact hab.asymm hab) h.2

/-- No two lists name the trains a port-down ends. -/
theorem State.EndedTrains.unique {s : State} {p : PortId} {ks ls : List MarkerKey} (h : s.EndedTrains p ks)
    (k : s.EndedTrains p ls) : ks = ls := by
  have perm : ks.Perm ls := (List.perm_ext_iff_of_nodup h.nodup k.nodup).2 fun x => (h.1 x).trans (k.1 x).symm
  exact perm.eq_of_pairwise (fun a b _ _ hab hba => absurd hba (MarkerKey.Before.asymm hab)) h.2 k.2

/-! ### Stores returned -/

/-- Between `s` and `t` owed markers alone were placed, or discarded where their DID is not reachable (R102). -/
structure State.Serves (s t : State) : Prop where
  owed : ∀ k ∈ t.owedMarkers, k ∈ s.owedMarkers
  reach : ∀ d, t.reachable d = s.reachable d
  grows : ∀ d c, ∃ ms, t.queue d c = s.queue d c ++ ms ∧
    ∀ e ∈ ms, ∃ k ∈ s.owedMarkers, k.did = d ∧ k.cls = c ∧ e = .mark k.src k.mc
  kept : ∀ k ∈ s.owedMarkers, s.reachable k.did = true → k ∈ t.owedMarkers ∨ .mark k.src k.mc ∈ t.queue k.did k.cls

theorem State.Serves.refl (s : State) : s.Serves s :=
  ⟨fun _ => id, fun _ => rfl, fun _ _ => ⟨[], (List.append_nil _).symm, fun _ h => absurd h List.not_mem_nil⟩,
    fun _ h _ => .inl h⟩

theorem State.Serves.trans {s t u : State} (h : s.Serves t) (k : t.Serves u) : s.Serves u where
  owed x hx := h.owed x (k.owed x hx)
  reach d := (k.reach d).trans (h.reach d)
  grows d c := by
    obtain ⟨ms, e, hm⟩ := h.grows d c
    obtain ⟨ns, e', hn⟩ := k.grows d c
    refine ⟨ms ++ ns, by rw [e', e, List.append_assoc], fun x hx => ?_⟩
    rcases List.mem_append.1 hx with hx | hx
    · exact hm x hx
    · obtain ⟨y, hy, rest⟩ := hn x hx
      exact ⟨y, h.owed y hy, rest⟩
  kept x hx hr := by
    rcases h.kept x hx hr with hx | hx
    · exact k.kept x hx (by rw [h.reach]; exact hr)
    · obtain ⟨ns, e', -⟩ := k.grows x.did x.cls
      rw [e']
      exact .inr (List.mem_append_left _ hx)

theorem State.placeMark_reachable (s : State) (k : MarkerKey) (d : Did) : (s.placeMark k).reachable d = s.reachable d :=
  s.setQueue_reachable _ _ _ d

/-- The markers ahead of the servable ones are of DIDs that are not reachable (R102). -/
theorem State.owedServable_spec (s : State) : ∃ gone, s.owedMarkers = gone ++ s.owedServable ∧
    ∀ k ∈ gone, s.reachable k.did = false := by
  refine ⟨s.owedMarkers.takeWhile fun k => !s.reachable k.did, List.takeWhile_append_dropWhile.symm, fun k hk => ?_⟩
  simpa using List.mem_takeWhile_imp hk

theorem State.returnMark_serving (s : State) : s.Serves s.returnMark := by
  obtain ⟨gone, split, unreachable⟩ := s.owedServable_spec
  obtain ⟨-, e⟩ | ⟨-, none, e⟩ | ⟨-, k, more, first, e⟩ := s.returnMark_cases <;> rw [e]
  · exact ⟨(State.Serves.refl s).owed, fun _ => rfl, (State.Serves.refl s).grows, fun _ h _ => .inl h⟩
  · refine ⟨fun _ h => absurd h List.not_mem_nil, fun _ => rfl, (State.Serves.refl s).grows, fun k hk hr => ?_⟩
    rw [split, none, List.append_nil] at hk
    rw [unreachable k hk] at hr
    cases hr
  · rw [first] at split
    set t : State := { s with markerUse := s.markerUse - 1, owedMarkers := more }
    refine ⟨fun x hx => ?_, fun d => t.placeMark_reachable k d, fun d c => ?_, fun x hx hr => ?_⟩
    · rw [split]
      exact List.mem_append_right _ (List.mem_cons_of_mem k hx)
    · refine ⟨_, t.placeMark_queue k d c, fun x hx => ?_⟩
      split_ifs at hx with key
      · exact ⟨k, by rw [split]; simp, key.1, key.2, List.mem_singleton.1 hx⟩
      · cases hx
    · rw [split] at hx
      rcases List.mem_append.1 hx with hx | hx
      · rw [unreachable x hx] at hr
        cases hr
      · rcases List.mem_cons.1 hx with rfl | hx
        · right
          rw [State.placeMark_queue, if_pos ⟨rfl, rfl⟩]
          exact List.mem_append_right _ (List.mem_singleton.2 rfl)
        · exact .inl hx

/-- Stores returned one after another. -/
def State.returnMarks (s : State) (n : Nat) : State := State.returnMark^[n] s

theorem State.returnMarks_zero (s : State) : s.returnMarks 0 = s := rfl

theorem State.returnMarks_succ (s : State) (n : Nat) : s.returnMarks (n + 1) = s.returnMark.returnMarks n := rfl

theorem State.returnMarks_add (s : State) (m n : Nat) : s.returnMarks (m + n) = (s.returnMarks m).returnMarks n := by
  unfold State.returnMarks
  rw [Nat.add_comm, Function.iterate_add_apply]

theorem State.returnMarks_serving (s : State) (n : Nat) : s.Serves (s.returnMarks n) := by
  induction n generalizing s with
  | zero => exact .refl s
  | succ n ih => exact s.returnMark_serving.trans (ih s.returnMark)

/-- With nothing owed, returned stores change the marker use alone (R102). -/
theorem State.returnMarks_nil {s : State} (n : Nat) (ho : s.owedMarkers = []) :
    (s.returnMarks n).owedMarkers = [] ∧ ∀ d c, (s.returnMarks n).queue d c = s.queue d c := by
  have serves := s.returnMarks_serving n
  have none (k : MarkerKey) : k ∉ s.owedMarkers := by rw [ho]; exact List.not_mem_nil
  refine ⟨List.eq_nil_iff_forall_not_mem.2 fun k hk => none k (serves.owed k hk), fun d c => ?_⟩
  obtain ⟨ms, e, from_owed⟩ := serves.grows d c
  have empty : ms = [] := List.eq_nil_iff_forall_not_mem.2 fun x hx => by
    obtain ⟨k, hk, -⟩ := from_owed x hx
    exact none k hk
  rw [e, empty, List.append_nil]

/-- Where every owed marker can be served, each returned store places the oldest one (R47, R102). -/
theorem State.returnMarks_placing {s : State} (n : Nat) (h64 : s.markerUse ≤ 64) (hn : n ≤ s.markerUse)
    (hr : ∀ k ∈ s.owedMarkers, s.reachable k.did = true) :
    (s.returnMarks n).owedMarkers = s.owedMarkers.drop n ∧
    (s.returnMarks n).markerUse = s.markerUse + min n s.owedMarkers.length - n ∧
    ∀ d c, (s.returnMarks n).queue d c = s.queue d c ++ marksTo d c (s.owedMarkers.take n) := by
  induction n generalizing s with
  | zero => exact ⟨rfl, by simp [State.returnMarks_zero], fun d c => (List.append_nil _).symm⟩
  | succ n ih =>
    rw [State.returnMarks_succ]
    cases ho : s.owedMarkers with
    | nil =>
      have first := s.returnMark_nil ho
      have use : s.returnMark.markerUse = s.markerUse - 1 := by rw [first]
      have owed : s.returnMark.owedMarkers = [] := by rw [first]; exact ho
      obtain ⟨owed', use', queue'⟩ := ih (s := s.returnMark) (by omega) (by omega) fun k hk => by rw [owed] at hk; cases hk
      rw [owed] at owed' use' queue'
      refine ⟨owed'.trans List.drop_nil, by rw [use', use]; simp; omega, fun d c => ?_⟩
      rw [queue', first, List.take_nil, List.take_nil]
      rfl
    | cons k more =>
      have first := s.returnMark_serves [] more k ho (fun x hx => absurd hx List.not_mem_nil)
        (hr k (by rw [ho]; exact List.mem_cons_self)) (by omega) h64
      have use : s.returnMark.markerUse = s.markerUse := by
        rw [first]
        change s.markerUse - 1 + 1 = _
        omega
      have owed : s.returnMark.owedMarkers = more := by rw [first]; rfl
      obtain ⟨owed', use', queue'⟩ := ih (s := s.returnMark) (by omega) (by omega) fun x hx => by
        rw [s.returnMark_serving.reach]
        rw [owed] at hx
        exact hr x (by rw [ho]; exact List.mem_cons_of_mem k hx)
      rw [owed] at owed' use' queue'
      refine ⟨owed', by rw [use', use, List.length_cons]; omega, fun d c => ?_⟩
      rw [queue', first, State.placeMark_queue, List.append_assoc, List.take_succ_cons, marksTo_cons]
      rfl

/-! ### The arrival unit -/

/-- The owed markers that stay when the DIDs `ds` are discarded (R105). -/
theorem State.marksDown_owed (s : State) (p : PortId) (ds : List Did) : (s.marksDown p ds).owedMarkers =
    (s.makeMarks (s.sourceDownKeys p)).owedMarkers.filter fun k => !decide (k.did ∈ ds) := by
  have discards (t : State) : (ds.foldl State.arrivalDestDown t).owedMarkers =
      t.owedMarkers.filter fun k => !decide (k.did ∈ ds) := by
    induction ds generalizing t with
    | nil => simp
    | cons d ds ih =>
      have one : (t.arrivalDestDown d).owedMarkers = t.owedMarkers.filter fun k => !decide (k.did = d) := by
        unfold State.arrivalDestDown State.discardMarksOf State.idleTrainsOf State.mapTrainsOf
        rw [State.mapPorts_owedMarkers]
      rw [List.foldl_cons, ih, one, List.filter_filter]
      refine List.filter_congr fun k _ => ?_
      by_cases h : k.did = d <;> simp [h]
  exact discards _

theorem State.marksDown_rest (s : State) (p : PortId) (ds : List Did) :
    (s.marksDown p ds).markerUse = (s.makeMarks (s.sourceDownKeys p)).markerUse ∧
    (s.marksDown p ds).dids = (s.makeMarks (s.sourceDownKeys p)).dids := by
  have frame (t : State) : (ds.foldl State.arrivalDestDown t).markerUse = t.markerUse ∧
      (ds.foldl State.arrivalDestDown t).dids = t.dids := by
    induction ds generalizing t with
    | nil => exact ⟨rfl, rfl⟩
    | cons d ds ih =>
      obtain ⟨use, dids⟩ := ih (t.arrivalDestDown d)
      rw [List.foldl_cons, use, dids]
      unfold State.arrivalDestDown State.discardMarksOf State.idleTrainsOf State.mapTrainsOf
      rw [State.mapPorts_markerUse, State.mapPorts_dids]
      exact ⟨rfl, rfl⟩
  exact frame _

theorem State.queue_congr {s t : State} (h : t.dids = s.dids) (d : Did) (c : Cls) : t.queue d c = s.queue d c := by
  unfold State.queue
  rw [State.did_congr h]

end Sys2Proof.Machine
end

section
/-! PROOFS. The flush of a port-down: the credits and the marker stores it returns, and what it leaves of the queues
(R102, R123, R124, R155). -/

namespace Sys2Proof.Machine

/-! ### Credits -/

/-- One credit of the port released (R155). -/
def Port.released (P : Port) : Port :=
  if P.held = 0 then P
  else { P with held := P.held - 1, owed := if P.link = .up then P.owed + 1 else P.owed }

theorem State.releaseCredit_eq (s : State) (p : PortId) : s.releaseCredit p = s.updPort p Port.released := rfl

theorem Port.released_iterate (P : Port) {n : Nat} (h : n ≤ P.held) :
    Port.released^[n] P = { P with held := P.held - n, owed := P.owed + if P.link = .up then n else 0 } := by
  induction n with
  | zero =>
    have : (if P.link = .up then 0 else 0) = 0 := by split <;> rfl
    rw [this]
    rfl
  | succ n ih =>
    rw [Function.iterate_succ_apply', ih (by omega), Port.released, if_neg (by change P.held - n ≠ 0; omega)]
    by_cases hl : P.link = .up
    · simp only [hl, if_true]
      rfl
    · simp only [hl, if_false]
      rfl

/-! ### States with equal markers -/

/-- `s` and `t` agree in the markers and in the queues but for those of the DIDs `ds`. -/
structure State.SameMarks (ds : List Did) (s t : State) : Prop where
  use : t.markerUse = s.markerUse
  owed : t.owedMarkers = s.owedMarkers
  reach : ∀ d, t.reachable d = s.reachable d
  queue : ∀ d c, d ∉ ds → t.queue d c = s.queue d c

section

variable {ds : List Did} {s t u : State}

theorem State.SameMarks.refl (ds : List Did) (s : State) : s.SameMarks ds s := ⟨rfl, rfl, fun _ => rfl, fun _ _ _ => rfl⟩

theorem State.SameMarks.trans (h : s.SameMarks ds t) (k : t.SameMarks ds u) : s.SameMarks ds u :=
  ⟨k.use.trans h.use, k.owed.trans h.owed, fun d => (k.reach d).trans (h.reach d),
    fun d c hd => (k.queue d c hd).trans (h.queue d c hd)⟩

/-- The DIDs of a view that shows destination entries and links can be reached as before. -/
theorem State.Keeps.reachable {V : View} (h : s.Keeps V t) (map : ∀ D : DidState, (V.did D).map = D.map)
    (link : ∀ P : Port, (V.port P).link = P.link) (d : Did) : t.reachable d = s.reachable d := by
  unfold State.reachable State.portOf State.isUp
  rw [h.didField DidState.map map d]
  cases (s.did d).map.port? with
  | none => rfl
  | some q => simp only [h.portField Port.link link q]

theorem State.SameMarks.placeMark (h : s.SameMarks ds t) (k : MarkerKey) : (s.placeMark k).SameMarks ds (t.placeMark k) where
  use := congrArg (· + 1) h.use
  owed := h.owed
  reach d := by rw [State.placeMark_reachable, State.placeMark_reachable, h.reach]
  queue d c hd := by rw [State.placeMark_queue, State.placeMark_queue, h.queue d c hd]

theorem State.SameMarks.returnMark (h : s.SameMarks ds t) : s.returnMark.SameMarks ds t.returnMark := by
  have servable : t.owedServable = s.owedServable := by
    unfold State.owedServable
    rw [h.owed]
    exact congrArg (List.dropWhile · s.owedMarkers) (funext fun k => by rw [h.reach])
  have written (owed : List MarkerKey) : State.SameMarks ds { s with markerUse := s.markerUse - 1, owedMarkers := owed }
      { t with markerUse := t.markerUse - 1, owedMarkers := owed } :=
    ⟨congrArg (· - 1) h.use, rfl, h.reach, h.queue⟩
  have use := h.use
  obtain ⟨hu, e⟩ | ⟨hu, none, e⟩ | ⟨hu, k, more, first, e⟩ := s.returnMark_cases <;>
    obtain ⟨hv, e'⟩ | ⟨hv, none', e'⟩ | ⟨hv, k', more', first', e'⟩ := t.returnMark_cases <;> rw [e, e']
  · exact ⟨congrArg (· - 1) h.use, h.owed, h.reach, h.queue⟩
  · omega
  · omega
  · omega
  · exact written []
  · rw [servable, none] at first'; cases first'
  · omega
  · rw [servable, first] at none'; cases none'
  · rw [servable, first] at first'
    obtain ⟨rfl, rfl⟩ := List.cons.inj first'
    exact (written more).placeMark k

theorem State.SameMarks.returnMarks (h : s.SameMarks ds t) (n : Nat) : (s.returnMarks n).SameMarks ds (t.returnMarks n) := by
  induction n generalizing s t with
  | zero => exact h
  | succ n ih => exact ih h.returnMark

/-! ### Flushes -/

/-- No owed marker is of a DID of `ds`. -/
def State.Avoids (s : State) (ds : List Did) : Prop := ∀ k ∈ s.owedMarkers, k.did ∉ ds

/-- Between `s` and `t` queues of the DIDs `ds` were flushed: `n q` credits of port `q` were released, and `k` marker
stores returned. -/
structure State.Flushes (ds : List Did) (s : State) (k : Nat) (n : PortId → Nat) (t : State) : Prop where
  ports : ∀ q, t.port q = Port.released^[n q] (s.port q)
  marks : (s.returnMarks k).SameMarks ds t

theorem State.Flushes.refl (ds : List Did) (s : State) : s.Flushes ds 0 (fun _ => 0) s := ⟨fun _ => rfl, .refl ds s⟩

theorem State.Flushes.trans {k l : Nat} {m n : PortId → Nat} (h : s.Flushes ds k m t) (g : t.Flushes ds l n u) :
    s.Flushes ds (k + l) (fun q => m q + n q) u where
  ports q := by rw [g.ports, h.ports, ← Function.iterate_add_apply, Nat.add_comm]
  marks := by
    rw [State.returnMarks_add]
    exact (h.marks.returnMarks l).trans g.marks

theorem State.Flushes.avoids {k : Nat} {n : PortId → Nat} (h : s.Flushes ds k n t) (ha : s.Avoids ds) : t.Avoids ds := by
  intro x hx
  rw [h.marks.owed] at hx
  exact ha x ((s.returnMarks_serving k).owed x hx)

/-- A change that neither ports nor markers show, nor queues but for those of `ds`. -/
theorem State.Flushes.silent (ports : t.ports = s.ports) (marks : s.SameMarks ds t) : s.Flushes ds 0 (fun _ => 0) t :=
  ⟨fun q => State.port_congr ports q, marks⟩

/-- The marker stores that the release of an entry returns. -/
def QEntry.stores (e : QEntry) : Nat := if e.isMark then 1 else 0

/-- The credits of port `q` that the release of an entry of class `c` returns. -/
def QEntry.credits (c : Cls) (q : PortId) (e : QEntry) : Nat := if c = .c0 ∧ e.isFrom q = true then 1 else 0

theorem State.releaseEntry_flushes (ds : List Did) (s : State) (d : Did) (c : Cls) (e : QEntry) :
    s.Flushes ds e.stores (fun q => e.credits c q) (s.releaseEntry d c e) := by
  have reach := (s.releaseEntry_keepsStores d c e).reachable (fun _ => rfl) fun _ => rfl
  have quiet (h : ∀ src mc, e ≠ .mark src mc) : s.SameMarks ds (s.releaseEntry d c e) := by
    obtain ⟨owed, use, queue⟩ := s.releaseEntry_queues d c e h
    exact ⟨use, owed, reach, fun d' c' _ => queue d' c'⟩
  cases e with
  | mark src mc =>
    refine ⟨fun q => ?_, ?_⟩
    · rw [QEntry.credits, if_neg fun h => Bool.false_ne_true h.2]
      exact State.port_congr s.returnMark_frame.1 q
    · exact .refl ds _
  | mref n =>
    refine ⟨fun q => ?_, quiet fun _ _ h => by cases h⟩
    rw [QEntry.credits, if_neg fun h => Bool.false_ne_true h.2]
    exact State.port_congr (s.releaseEntry_ports d c _ fun _ h => by cases h) q
  | cell x =>
    refine ⟨fun q => ?_, quiet fun _ _ h => by cases h⟩
    by_cases hc : c = .c0
    · subst hc
      change (s.releaseCredit x.src).port q = _
      rw [State.releaseCredit_eq, State.updPort_port]
      by_cases hq : q = x.src
      · rw [if_pos hq, QEntry.credits, if_pos ⟨rfl, decide_eq_true hq.symm⟩, hq]
        rfl
      · rw [if_neg hq, QEntry.credits, if_neg fun h => hq (of_decide_eq_true h.2).symm]
        rfl
    · rw [QEntry.credits, if_neg fun h => hc h.1]
      exact State.port_congr (s.releaseEntry_ports d c _ fun _ _ => hc) q

theorem State.releaseEntry_inner {s : State} (ha : s.Avoids ds) (d : Did) (c : Cls) (e : QEntry) {d' : Did} (hd : d' ∈ ds)
    (c' : Cls) : (s.releaseEntry d c e).queue d' c' = s.queue d' c' := by
  by_cases h : ∀ src mc, e ≠ .mark src mc
  · exact (s.releaseEntry_queues d c e h).2.2 d' c'
  · simp only [ne_eq, not_forall, not_not] at h
    obtain ⟨src, mc, rfl⟩ := h
    obtain ⟨ms, grown, placed⟩ := s.returnMark_serving.grows d' c'
    have none : ms = [] := List.eq_nil_iff_forall_not_mem.2 fun x hx => by
      obtain ⟨k, hk, rfl, -⟩ := placed x hx
      exact ha k hk hd
    rw [none, List.append_nil] at grown
    exact grown

/-! ### A queue -/

theorem State.releaseEntries_flushes (ds : List Did) (s : State) (d : Did) (c : Cls) (es : List QEntry) :
    s.Flushes ds (es.map QEntry.stores).sum (fun q => (es.map (QEntry.credits c q)).sum)
      (es.foldl (fun t e => t.releaseEntry d c e) s) := by
  induction es generalizing s with
  | nil => exact .refl ds s
  | cons e es ih => exact (s.releaseEntry_flushes ds d c e).trans (ih _)

theorem State.releaseEntries_inner {s : State} (ha : s.Avoids ds) (d : Did) (c : Cls) (es : List QEntry) {d' : Did}
    (hd : d' ∈ ds) (c' : Cls) : (es.foldl (fun t e => t.releaseEntry d c e) s).queue d' c' = s.queue d' c' := by
  induction es generalizing s with
  | nil => rfl
  | cons e es ih =>
    rw [List.foldl_cons, ih ((s.releaseEntry_flushes ds d c e).avoids ha), State.releaseEntry_inner ha d c e hd]

theorem State.setQueue_flushes (s : State) {d : Did} (hd : d ∈ ds) (c : Cls) (q : List QEntry) :
    s.Flushes ds 0 (fun _ => 0) (s.setQueue d c q) := by
  refine .silent rfl ⟨rfl, rfl, s.setQueue_reachable d c q, fun d' c' hd' => ?_⟩
  rw [State.setQueue_queue, if_neg fun h => hd' (by rw [(Prod.mk.inj h).1]; exact hd)]

/-- The marker stores in a queue, and the credits of port `q` in a queue of class `c`. -/
def storesIn (es : List QEntry) : Nat := (es.map QEntry.stores).sum

def creditsIn (c : Cls) (q : PortId) (es : List QEntry) : Nat := (es.map (QEntry.credits c q)).sum

theorem State.flushQueue_flushes (s : State) {d : Did} (hd : d ∈ ds) (c : Cls) :
    s.Flushes ds (storesIn (s.queue d c)) (fun q => creditsIn c q (s.queue d c)) (s.flushQueue d c) := by
  have both := (s.setQueue_flushes hd c []).trans (State.releaseEntries_flushes ds (s.setQueue d c []) d c (s.queue d c))
  simp only [Nat.zero_add] at both
  exact both

theorem State.flushQueue_inner {s : State} (ha : s.Avoids ds) {d d' : Did} (hd' : d' ∈ ds) (c c' : Cls) :
    (s.flushQueue d c).queue d' c' = if (d', c') = (d, c) then [] else s.queue d' c' := by
  unfold State.flushQueue
  rw [State.releaseEntries_inner (s := s.setQueue d c []) ha d c _ hd' c', State.setQueue_queue]

theorem State.flushClasses {s : State} (ha : s.Avoids ds) {d : Did} (hd : d ∈ ds) {cs : List Cls} (hn : cs.Nodup) :
    s.Flushes ds (cs.map fun c => storesIn (s.queue d c)).sum (fun q => (cs.map fun c => creditsIn c q (s.queue d c)).sum)
      (cs.foldl (fun t c => t.flushQueue d c) s) ∧
    ∀ d' ∈ ds, ∀ c', (cs.foldl (fun t c => t.flushQueue d c) s).queue d' c' =
      if d' = d ∧ c' ∈ cs then [] else s.queue d' c' := by
  induction cs generalizing s with
  | nil => exact ⟨.refl ds s, fun d' _ c' => by simp⟩
  | cons c cs ih =>
    obtain ⟨hc, hn⟩ := List.nodup_cons.1 hn
    have first := s.flushQueue_flushes hd c
    have inner {d' : Did} (hd' : d' ∈ ds) (c' : Cls) := State.flushQueue_inner ha hd' (d := d) c c'
    obtain ⟨rest, queues⟩ := ih (first.avoids ha) hn
    have same : ∀ c' ∈ cs, (s.flushQueue d c).queue d c' = s.queue d c' := fun c' hc' => by
      rw [inner hd, if_neg fun h => hc (by rw [← (Prod.mk.inj h).2]; exact hc')]
    have stores : (cs.map fun c' => storesIn ((s.flushQueue d c).queue d c')) = cs.map fun c' => storesIn (s.queue d c') :=
      List.map_congr_left fun c' hc' => by rw [same c' hc']
    have credits q : (cs.map fun c' => creditsIn c' q ((s.flushQueue d c).queue d c')) =
        cs.map fun c' => creditsIn c' q (s.queue d c') :=
      List.map_congr_left fun c' hc' => by rw [same c' hc']
    rw [stores] at rest
    simp only [credits] at rest
    refine ⟨first.trans rest, fun d' hd' c' => ?_⟩
    rw [List.foldl_cons, queues d' hd' c', inner hd']
    by_cases h : d' = d <;> by_cases k : c' = c <;> simp [h, k]

/-! ### A destination -/

theorem storesIn_eq (es : List QEntry) : storesIn es = es.countP QEntry.isMark := by
  unfold storesIn
  induction es with
  | nil => rfl
  | cons e es ih =>
    rw [List.map_cons, List.sum_cons, ih, List.countP_cons, QEntry.stores, Nat.add_comm]

theorem creditsIn_c0 (q : PortId) (es : List QEntry) : creditsIn .c0 q es = es.countP (QEntry.isFrom q) := by
  unfold creditsIn
  induction es with
  | nil => rfl
  | cons e es ih =>
    rw [List.map_cons, List.sum_cons, ih, List.countP_cons, QEntry.credits, Nat.add_comm]
    simp

theorem creditsIn_granted {c : Cls} (hc : c ≠ .c0) (q : PortId) (es : List QEntry) : creditsIn c q es = 0 := by
  unfold creditsIn
  induction es with
  | nil => rfl
  | cons e es ih => rw [List.map_cons, List.sum_cons, ih, QEntry.credits, if_neg fun h => hc h.1]

theorem PerClass.eq_of_get {α : Type} {x y : PerClass α} (h : ∀ c, x.get c = y.get c) : x = y := by
  obtain ⟨h0, h1, h2, h3⟩ := (⟨h .c0, h .c1, h .c2, h .c3⟩ : x.c0 = y.c0 ∧ x.c1 = y.c1 ∧ x.c2 = y.c2 ∧ x.c3 = y.c3)
  cases x
  cases y
  simp only at h0 h1 h2 h3
  rw [h0, h1, h2, h3]

theorem mem_allClasses (c : Cls) : c ∈ Cls.all := by cases c <;> decide

theorem State.flushDid_flushes {s : State} (ha : s.Avoids ds) {d : Did} (hd : d ∈ ds) :
    s.Flushes ds (s.did d).marks (fun q => (s.queue d .c0).countP (QEntry.isFrom q)) (s.flushDid d .addFlush) ∧
    ∀ d' ∈ ds, ∀ c', (s.flushDid d .addFlush).queue d' c' = if d' = d then [] else s.queue d' c' := by
  obtain ⟨flushed, queues⟩ := State.flushClasses ha hd (cs := Cls.all) (by decide)
  have marks : (Cls.all.map fun c => storesIn (s.queue d c)).sum = (s.did d).marks := by
    simp only [Cls.all, List.map_cons, List.map_nil, List.sum_cons, List.sum_nil, storesIn_eq]
    exact (by intros; omega : ∀ a b c e : Nat, a + (b + (c + (e + 0))) = a + b + c + e) _ _ _ _
  have credits q : (Cls.all.map fun c => creditsIn c q (s.queue d c)).sum = (s.queue d .c0).countP (QEntry.isFrom q) := by
    simp only [Cls.all, List.map_cons, List.map_nil, List.sum_cons, List.sum_nil, creditsIn_c0]
    rw [creditsIn_granted (by decide), creditsIn_granted (by decide), creditsIn_granted (by decide)]
    rfl
  rw [marks] at flushed
  simp only [credits] at flushed
  have counted (t : State) (f : DidCounters → DidCounters) : t.Flushes ds 0 (fun _ => 0) (t.countDid d f) ∧
      ∀ d' c', (t.countDid d f).queue d' c' = t.queue d' c' := by
    have queue := t.updDid_queue d (f := fun D => { D with counters := f D.counters }) fun _ => rfl
    have keeps : t.Keeps .flush (t.countDid d f) := .updDid _ _ _ fun _ => rfl
    exact ⟨.silent rfl ⟨rfl, rfl, keeps.reachable (fun _ => rfl) fun _ => rfl, fun d' c' _ => queue d' c'⟩, queue⟩
  obtain ⟨silent, queue⟩ := counted (Cls.all.foldl (fun t c => t.flushQueue d c) s) (.addFlush (s.did d).queued)
  refine ⟨flushed.trans silent, fun d' hd' c' => ?_⟩
  unfold State.flushDid
  rw [queue, queues d' hd' c']
  by_cases h : d' = d
  · rw [if_pos ⟨h, mem_allClasses c'⟩, if_pos h]
  · rw [if_neg fun k => h k.1, if_neg h]

theorem State.flushDid_counters (s : State) (d d' : Did) : ((s.flushDid d .addFlush).did d').counters =
    if d' = d then (s.did d).counters.addFlush (s.did d).queued else (s.did d').counters := by
  have keeps : s.Keeps .stores (Cls.all.foldl (fun t c => t.flushQueue d c) s) :=
    .foldl (fun t c => t.flushQueue_keepsStores d c) s _
  have counters := keeps.didField DidState.counters fun _ => rfl
  unfold State.flushDid State.countDid
  rw [State.updDid_did]
  split_ifs with h
  · rw [h, counters]
  · exact counters d'

/-! ### The destinations of the port that went down -/

theorem State.flushedDown_flushes {s : State} (ha : s.Avoids ds) {xs : List Did} (hx : ∀ d ∈ xs, d ∈ ds) (hn : xs.Nodup) :
    s.Flushes ds (xs.map fun d => (s.did d).marks).sum
      (fun q => (xs.map fun d => (s.queue d .c0).countP (QEntry.isFrom q)).sum) (s.flushedDown xs) ∧
    ∀ d' ∈ ds, (∀ c', (s.flushedDown xs).queue d' c' = if d' ∈ xs then [] else s.queue d' c') ∧
      ((s.flushedDown xs).did d').counters =
        if d' ∈ xs then (s.did d').counters.addFlush (s.did d').queued else (s.did d').counters := by
  induction xs generalizing s with
  | nil => exact ⟨.refl ds s, fun d' _ => ⟨fun _ => by simp [State.flushedDown], by simp [State.flushedDown]⟩⟩
  | cons d xs ih =>
    obtain ⟨hd, hn⟩ := List.nodup_cons.1 hn
    have hds := hx d List.mem_cons_self
    obtain ⟨first, queues⟩ := State.flushDid_flushes ha hds
    have counters := s.flushDid_counters d
    have step : s.flushedDown (d :: xs) = (s.flushDid d .addFlush).flushedDown xs := by
      unfold State.flushedDown
      rw [List.foldl_cons]
    obtain ⟨rest, each⟩ := ih (first.avoids ha) (fun x h => hx x (List.mem_cons_of_mem d h)) hn
    have same : ∀ x ∈ xs, ((s.flushDid d .addFlush).did x).queues = (s.did x).queues := fun x h => by
      have hq (c : Cls) := queues x (hx x (List.mem_cons_of_mem d h)) c
      have hne : x ≠ d := fun e => hd (e ▸ h)
      simp only [if_neg hne] at hq
      exact PerClass.eq_of_get hq
    have marks : (xs.map fun x => ((s.flushDid d .addFlush).did x).marks) = xs.map fun x => (s.did x).marks :=
      List.map_congr_left fun x h => by unfold DidState.marks; rw [same x h]
    have credits q : (xs.map fun x => ((s.flushDid d .addFlush).queue x .c0).countP (QEntry.isFrom q)) =
        xs.map fun x => (s.queue x .c0).countP (QEntry.isFrom q) :=
      List.map_congr_left fun x h => by unfold State.queue; rw [same x h]
    rw [marks] at rest
    simp only [credits] at rest
    rw [step]
    refine ⟨first.trans rest, fun d' hd' => ⟨fun c' => ?_, ?_⟩⟩
    · rw [(each d' hd').1 c', queues d' hd' c']
      by_cases h : d' = d <;> by_cases k : d' ∈ xs <;> simp [h, k]
    · rw [(each d' hd').2, counters]
      by_cases h : d' = d
      · subst h
        simp [hd]
      · by_cases k : d' ∈ xs
        · simp only [k, if_true, h, if_false, List.mem_cons_of_mem d k]
          unfold DidState.queued
          rw [same d' k]
        · simp [h, k]

end

end Sys2Proof.Machine
end

section
/-! PROOFS. Trains, snapshots and element lists in a port-down, and the end of its event (R104, R105, R125, R139, R140,
R148, R152, R157, R159). -/

namespace Sys2Proof.Machine

/-! ### Trains -/

theorem State.makeMarks_keepsStores (s : State) (ks : List MarkerKey) : s.Keeps .stores (s.makeMarks ks) := by
  refine .foldl (fun t k => ?_) _ _
  have placed : t.Keeps .stores (t.placeMark k) :=
    (State.Keeps.ofQueue (V := .stores) (fun _ _ => rfl) t k.did k.cls _).trans (.ofRest rfl rfl rfl)
  obtain ⟨-, e⟩ | ⟨-, -, e⟩ | ⟨-, -, e⟩ := t.makeMark_cases k <;> rw [e]
  · exact placed
  · exact .refl _ _
  · exact .ofRest rfl rfl rfl

/-- A view of a release shows all that can stay gone. -/
theorem State.Keeps.wanes_of_flush {s t : State} (h : s.Keeps .flush t) (p : PortId) : s.Wanes p t :=
  .ofKeeps h (fun _ => rfl) (fun _ => rfl) (fun _ => rfl) (fun _ => rfl) (fun _ => rfl) fun _ => rfl

theorem State.idleTrainsOf_train (s : State) (d : Did) (q : PortId) (e : Did) (c : Cls) :
    (s.idleTrainsOf d).train q e c = if e = d then .idle else s.train q e c := by
  unfold State.train State.idleTrainsOf State.mapTrainsOf
  rw [State.mapPorts_port]
  unfold Port.train
  by_cases h : e = d
  · subst h
    simp
  · have : d.val ≠ e.val := fun x => h (Fin.ext x).symm
    simp [h, this]

theorem State.idleTrainsOf_wanes (s : State) (p : PortId) (d : Did) : s.Wanes p (s.idleTrainsOf d) := by
  refine ⟨fun q => ?_, fun _ _ _ => ?_, fun q _ => ?_⟩
  · have trains (e : Did) (c : Cls) (h : (s.port q).train e c = .idle) : ((s.idleTrainsOf d).port q).train e c = .idle := by
      change (s.idleTrainsOf d).train q e c = .idle
      rw [State.idleTrainsOf_train]
      split_ifs
      · rfl
      · exact h
    unfold State.idleTrainsOf State.mapTrainsOf at *
    rw [State.mapPorts_port] at *
    exact .ofTrains rfl trains rfl
  · unfold State.bids State.idleTrainsOf State.mapTrainsOf
    rw [State.mapPorts_did]
    exact id
  · unfold State.idleTrainsOf State.mapTrainsOf
    rw [State.mapPorts_port]
    exact .ofEq rfl rfl

theorem State.arrivalDestDown_wanes (s : State) (p : PortId) (d : Did) : s.Wanes p (s.arrivalDestDown d) :=
  have discarded (t : State) : t.Keeps .flush (t.discardMarksOf d) := .ofRest rfl rfl rfl
  (s.idleTrainsOf_wanes p d).trans ((discarded _).wanes_of_flush p)

theorem State.arrivalSourceDown_wanes (s : State) (p : PortId) : s.Wanes p (s.arrivalSourceDown p) ∧
    ∀ d c, (s.arrivalSourceDown p).train p d c = .idle := by
  have idle (P : Port) (d : Did) (c : Cls) :
      Port.train { P with trains := tabMap (fun _ _ => PerClass.const .idle) P.trains } d c = .idle := by
    unfold Port.train
    rw [tabMap_get, PerClass.get_const]
  have trains (t : State) : t.Wanes p (t.updPort p fun P =>
      { P with trains := tabMap (fun _ _ => PerClass.const .idle) P.trains }) :=
    .updPort t p (.ofTrains rfl (fun d c _ => idle _ d c) rfl) fun h => absurd rfl h
  refine ⟨((s.makeMarks_keepsStores _).flush_of_stores.wanes_of_flush p).trans (trains _), fun d c => ?_⟩
  unfold State.train State.arrivalSourceDown
  rw [State.updPort_port_self]
  exact idle _ d c

theorem State.marksDown_wanes (s : State) (p : PortId) (ds : List Did) : s.Wanes p (s.marksDown p ds) :=
  (s.arrivalSourceDown_wanes p).1.trans (.foldl (fun t d => t.arrivalDestDown_wanes p d) _ _)

theorem State.arrivalDestDown_train (s : State) (d : Did) (q : PortId) (c : Cls) : (s.arrivalDestDown d).train q d c = .idle := by
  have discarded (t : State) : t.Keeps .stores (t.discardMarksOf d) := .ofRest rfl rfl rfl
  have idle := s.idleTrainsOf_train d q d c
  rw [if_pos rfl] at idle
  unfold State.arrivalDestDown State.train Port.train at *
  rw [(discarded _).portField Port.trains (fun _ => rfl) q]
  exact idle

theorem State.marksDown_trains (s : State) (p : PortId) (ds : List Did) :
    (∀ d c, (s.marksDown p ds).train p d c = .idle) ∧ ∀ d ∈ ds, ∀ q c, (s.marksDown p ds).train q d c = .idle := by
  unfold State.marksDown
  have start := (s.arrivalSourceDown_wanes p).2
  generalize s.arrivalSourceDown p = t at start
  have later : t.Wanes p (ds.foldl State.arrivalDestDown t) := .foldl (fun t d => t.arrivalDestDown_wanes p d) _ _
  refine ⟨fun d c => (later.port p).trains d c (start d c), fun d hd q c => ?_⟩
  exact foldl_reaches (φ := fun t => t.train q d c = .idle) (fun t => t.arrivalDestDown_train d q c)
    (fun t y h => ((t.arrivalDestDown_wanes p y).port q).trains d c h) hd t

/-! ### Multicast trains -/

theorem DidSet.has_without (m : DidSet) (d e : Did) : DidSet.has (DidSet.without m d) e =
    (DidSet.has m e && !decide (e = d)) := by
  unfold DidSet.has DidSet.without
  simp only [BitVec.getLsbD_and, BitVec.getLsbD_not, BitVec.getLsbD_shiftLeft, BitVec.getLsbD_one]
  have he := e.isLt
  by_cases h : e = d
  · subst h
    simp
  · have : e.val ≠ d.val := fun x => h (Fin.ext x)
    by_cases hlt : e.val < d.val
    · simp [h, hlt, he]
    · have : e.val - d.val ≠ 0 := by omega
      simp [h, he, this]

theorem DidSet.without_empty (d : Did) : DidSet.without 0 d = 0 := BitVec.zero_and

theorem State.mcForget_mcTrain (s : State) (d : Did) (q : PortId) (c : GClass) :
    (s.mcForget d).mcTrain q c = { s.mcTrain q c with snapshot := DidSet.without (s.mcTrain q c).snapshot d } := by
  unfold State.mcTrain State.mcForget
  rw [State.mapPorts_port, PerG.get_map]

theorem State.mcForget_wanes (s : State) (p : PortId) (d : Did) : s.Wanes p (s.mcForget d) := by
  refine .mapPorts s (fun q P => .ofMcTrains rfl rfl (fun c h => ?_) fun c e h => ?_) fun q P => .ofEq rfl rfl
  · change PerG.get (P.mcTrains.map fun _ (r : McTrain) => { r with snapshot := DidSet.without r.snapshot d }) c = _
    rw [PerG.get_map, h]
    exact congrArg (McTrain.mk TrainState.idle) (DidSet.without_empty d)
  · change DidSet.has (PerG.get (P.mcTrains.map fun _ (r : McTrain) => { r with snapshot := DidSet.without r.snapshot d }) c).snapshot e = _
    rw [PerG.get_map, DidSet.has_without, h]
    rfl

theorem State.mcSourceDown_wanes (s : State) (p : PortId) : s.Wanes p (s.mcSourceDown p) ∧
    ∀ c, (s.mcSourceDown p).mcTrain p c = ⟨.idle, 0⟩ := by
  have idle (c : GClass) : (PerG.const McTrain.idle).get c = ⟨.idle, 0⟩ := PerG.get_const _ c
  refine ⟨.updPort s p (.ofMcTrains rfl rfl (fun c _ => idle c) fun c d _ => ?_) fun h => absurd rfl h, fun c => ?_⟩
  · change DidSet.has ((PerG.const McTrain.idle).get c).snapshot d = false
    rw [idle]
    exact BitVec.getLsbD_zero
  · unfold State.mcTrain State.mcSourceDown
    rw [State.updPort_port_self]
    exact idle c

theorem State.trainsDown_wanes (s : State) (p : PortId) (ds : List Did) : s.Wanes p (s.trainsDown p ds) :=
  (s.mcSourceDown_wanes p).1.trans (.foldl (fun t d => t.mcForget_wanes p d) _ _)

theorem State.trainsDown_mcTrains (s : State) (p : PortId) (ds : List Did) :
    (∀ c, (s.trainsDown p ds).mcTrain p c = ⟨.idle, 0⟩) ∧
      ∀ d ∈ ds, ∀ q c, DidSet.has ((s.trainsDown p ds).mcTrain q c).snapshot d = false := by
  have later (t : State) : t.Wanes p (ds.foldl State.mcForget t) := .foldl (fun t d => t.mcForget_wanes p d) _ _
  refine ⟨fun c => ((later _).port p).mcTrains c ((s.mcSourceDown_wanes p).2 c), fun d hd q c => ?_⟩
  refine foldl_reaches (φ := fun t => DidSet.has (t.mcTrain q c).snapshot d = false) (fun t => ?_)
    (fun t y h => ((t.mcForget_wanes p y).port q).snapshots c d h) hd _
  rw [State.mcForget_mcTrain, DidSet.has_without, decide_eq_true rfl, Bool.not_true, Bool.and_false]

/-! ### The end of the event -/

theorem State.judgeDrain_wanes (s : State) (p : PortId) (d : Did) : s.Wanes p (s.judgeDrain d) := by
  have removed (t : State) (why : Reason) : t.Wanes p (GClass.all.foldl (fun t c => t.removeBids d c why) t) :=
    .foldl (fun t c => t.removeBids_wanes p d c why) t _
  have rejudged (t : State) : t.Wanes p (t.rejudgeBids d) := by
    unfold State.rejudgeBids
    split
    · exact removed t _
    · split_ifs
      · exact .refl t p
      · exact removed t _
  obtain ⟨_, target, _, _, -, -, e⟩ | ⟨-, e⟩ := s.judgeDrain_cases d <;> rw [e]
  · unfold State.cutover State.afterCutover
    rw [s.setMap_completeMove]
    have moved (m : DidMap) (r : MoveResult) :
        s.Wanes p (s.updDid d fun D => { D with map := m, lastMove := r, moveDone := true }) := .updDid s d fun _ _ => id
    refine (moved (.mapped target) .drained).trans ?_
    dsimp only
    split_ifs
    · exact rejudged _
    · exact (rejudged _).trans ((State.idleTrainsOf_wanes _ p d).trans (State.mcForget_wanes _ p d))
  · exact .refl s p

theorem eventEnd_wanes (s t : State) (p : PortId) : t.Wanes p (eventEnd s t) :=
  (State.Wanes.foldl (fun t d => t.judgeDrain_wanes p d) t _).trans
    (.ofKeeps (noticeStep_keeps _ _) (fun _ => rfl) (fun _ => rfl) (fun _ => rfl) (fun _ => rfl) (fun _ => rfl) fun _ => rfl)

theorem State.Keeps.drained {V : View} {s t : State} (h : s.Keeps V t) (queues : ∀ D : DidState, (V.did D).queues = D.queues)
    (grants : ∀ P : Port, (V.port P).grants = P.grants) (box : ∀ P : Port, (V.port P).grantOutbox = P.grantOutbox)
    (owed : ∀ x : State, (V.rest x.bare).owedMarkers = x.owedMarkers) (d : Did) : t.drained d = s.drained d := by
  have parts := h.portField Port.grants grants
  have boxes := h.portField Port.grantOutbox box
  have hq : t.hasQueued d = s.hasQueued d := by
    unfold State.hasQueued DidState.queued
    rw [h.didField DidState.queues queues d]
  have hw : t.owedMarkers = s.owedMarkers := h.restField State.owedMarkers owed
  simp only [State.drained, hq, State.hasGrant, State.grant, Port.grant, parts, State.hasOutbox, boxes, State.hasOwed, hw]

/-- A MOVING DID that an event drained is cut over at its end (R148, R149). -/
theorem eventEnd_cuts {s t : State} {d : Did} {port target : PortId} {time code : Nat}
    (hm : (t.did d).map = .moving port target time code) (before : s.drained d = false) (after : t.drained d = true) :
    ((eventEnd s t).did d).map = .mapped target ∧ ((eventEnd s t).did d).lastMove = .drained ∧
      ((eventEnd s t).did d).moveDone = true := by
  have judged (u : State) (xs : List Did) : (u.did d).Follows ((xs.foldl State.judgeDrain u).did d) :=
    (State.Calm.foldl State.judgeDrain_calm u xs).did d
  have follows : (t.did d).Follows ((s.drainStep t).did d) := judged t _
  have moved : ((s.drainStep t).did d).map.isMoving = false := by
    have listed : d ∈ allDids.filter fun d => (t.did d).map.isMoving && !s.drained d := by
      rw [List.mem_filter, hm, before]
      exact ⟨List.mem_finRange d, rfl⟩
    obtain ⟨before, after', split⟩ := List.append_of_mem listed
    unfold State.drainStep
    rw [split, List.foldl_append, List.foldl_cons]
    set u := before.foldl State.judgeDrain t
    have still : u.drained d = true := by
      rw [← after]
      exact State.Keeps.drained (.foldl State.judgeDrain_keepsCutover t before) (fun _ => rfl) (fun _ => rfl) (fun _ => rfl)
        (fun _ => rfl) d
    have stays {D E : DidState} (h : D.map.isMoving = false) (k : D.Follows E) : E.map.isMoving = false := by
      rcases k.2 with ⟨hm, -⟩ | ⟨_, _, _, _, -, hm, -⟩ <;> rw [hm]
      · exact h
      · rfl
    refine stays ?_ (judged (u.judgeDrain d) after')
    obtain ⟨_, _, _, _, hu, hd, e⟩ | ⟨h | h, e⟩ := u.judgeDrain_cases d
    · rw [e]
      unfold State.cutover
      rw [u.setMap_completeMove]
      refine stays ?_ ((State.afterCutover_calm _ d).did d)
      rw [State.updDid_did, if_pos rfl]
      rfl
    · rw [e]; exact h
    · rw [still] at h; cases h
  rcases follows.2 with ⟨hm', -⟩ | ⟨_, _, _, _, hm', ends⟩
  · rw [hm', hm] at moved; cases moved
  · rw [hm] at hm'
    cases hm'
    have dids : (eventEnd s t).did d = (s.drainStep t).did d := State.did_congr (noticeStep_dids s _) d
    rw [dids]
    exact ends

end Sys2Proof.Machine
end

section
/-! PROOFS. What the stages of a port-down come to together (R25, R102, R104, R105, R123 to R125, R152, R155 to R159). -/

namespace Sys2Proof.Machine

/-! ### Element lists -/

/-- A response held for the port that went down is discarded (R159). -/
theorem State.dropElements_own {s : State} {p : PortId} {f : Frame} (h : s.cmdUnit = .holding p f) :
    (s.dropElements p).cmdUnit = .ready := by
  have freed (t : State) (n : Nat) (ht : t.cmdUnit = .ready) : (t.freeElements n).cmdUnit = .ready := by
    obtain rfl | hn := n.eq_zero_or_pos
    · exact ht
    · rw [t.freeElements_pos hn]
      unfold State.offerHeld
      simp only [ht]
  refine freed _ _ ?_
  rw [State.updPort_cmdUnit]
  unfold State.dropHeld
  simp only [h, if_true]

/-- A response held for another port takes a store that the element cells of `p` free (R157, R159). -/
theorem State.dropElements_other {s : State} {p q : PortId} {f : Frame} (h : s.cmdUnit = .holding q f) (hq : q ≠ p)
    (hu : s.isUp q = true) (huse : s.elementUse ≤ 32) :
    if (s.port p).elements = [] then (s.dropElements p).cmdUnit = .holding q f
    else (s.dropElements p).cmdUnit = .ready ∧ f ∈ ((s.dropElements p).port q).elements := by
  have held : s.dropHeld p = s := by
    unfold State.dropHeld
    simp only [h, hq, if_false]
  unfold State.dropElements
  rw [held]
  set t := s.updPort p fun P => { P with elements := [] }
  split_ifs with hp
  · rw [hp]
    exact h
  · have pos : 0 < (s.port p).elements.length := List.length_pos_iff.2 hp
    rw [t.freeElements_pos pos]
    set u : State := { t with elementUse := t.elementUse - (s.port p).elements.length }
    have unit : u.cmdUnit = .holding q f := h
    have up : u.isUp q = true := by
      have : u.port q = s.port q := s.updPort_port_ne (fun P => { P with elements := [] }) hq
      unfold State.isUp at hu ⊢
      rw [this]
      exact hu
    have room : u.elementUse < Config.elementAllowance := by
      change s.elementUse - (s.port p).elements.length < 32
      omega
    have offered : u.offerHeld = { u.placeElement q f with cmdUnit := .ready } := by
      unfold State.offerHeld
      simp only [unit, up, Bool.not_true, Bool.false_eq_true, if_false, room, if_true]
    rw [offered]
    refine ⟨rfl, ?_⟩
    have placed : (u.placeElement q f).port q = { u.port q with elements := (u.port q).elements ++ [f] } :=
      u.updPort_port_self q fun P => { P with elements := P.elements ++ [f] }
    change f ∈ ((u.placeElement q f).port q).elements
    rw [placed]
    exact List.mem_append_right _ (List.mem_singleton.2 rfl)

/-! ### After the flush -/

/-- The stages after the flush: element list, multicast trains, owed credits (R125, R139, R140, R156). -/
def State.listsDown (s : State) (p : PortId) (ds : List Did) : State :=
  ((s.dropElements p).trainsDown p ds).updPort p fun P => { P with owed := 0 }

theorem State.blocksDown_stages (s : State) (p : PortId) : s.blocksDown p =
    (((s.recordsDown p).marksDown p (s.didsOf p)).flushedDown (s.didsOf p)).listsDown p (s.didsOf p) := rfl

/-- All but what the stages after the flush change, owed credits aside. -/
def View.lists : View where
  port P := { View.trains.port (View.elements.port P) with owed := 0 }
  did D := D
  rest s := View.elements.rest s

theorem State.listsDown_keeps (s : State) (p : PortId) (ds : List Did) : s.Keeps .lists (s.listsDown p ds) := by
  have elements : s.Keeps .lists (s.dropElements p) :=
    (s.dropElements_keepsElements p).coarsen (fun _ => rfl) (fun _ => rfl) fun _ => rfl
  have trains (t : State) : t.Keeps .lists (t.trainsDown p ds) :=
    (t.trainsDown_keeps p ds).coarsen (fun _ => rfl) (fun _ => rfl) fun _ => rfl
  have owed (t : State) : t.Keeps .lists (t.updPort p fun P => { P with owed := 0 }) := .updPort _ _ _ fun _ => rfl
  exact elements.trans ((trains _).trans (owed _))

theorem State.listsDown_owed (s : State) {p q : PortId} (hq : q ≠ p) (ds : List Did) :
    ((s.listsDown p ds).port q).owed = (s.port q).owed := by
  unfold State.listsDown
  rw [State.updPort_port_ne _ _ hq, (State.trainsDown_keeps _ p ds).portField Port.owed fun _ => rfl,
    (s.dropElements_keepsElements p).portField Port.owed fun _ => rfl]

theorem State.listsDown_wanes (s : State) (p : PortId) (ds : List Did) : s.Wanes p (s.listsDown p ds) := by
  have elements : s.Wanes p (s.dropElements p) :=
    .ofKeeps (s.dropElements_keepsElements p) (fun _ => rfl) (fun _ => rfl) (fun _ => rfl) (fun _ => rfl) (fun _ => rfl)
      fun _ => rfl
  have owed (t : State) : t.Wanes p (t.updPort p fun P => { P with owed := 0 }) :=
    .updPort t p (.ofEq rfl rfl rfl) fun _ => .ofEq rfl rfl
  exact elements.trans ((State.trainsDown_wanes _ p ds).trans (owed _))

theorem State.listsDown_mcTrains (s : State) (p : PortId) (ds : List Did) :
    (∀ c, (s.listsDown p ds).mcTrain p c = ⟨.idle, 0⟩) ∧
      ∀ d ∈ ds, ∀ q c, DidSet.has ((s.listsDown p ds).mcTrain q c).snapshot d = false := by
  obtain ⟨own, forgotten⟩ := (s.dropElements p).trainsDown_mcTrains p ds
  have owed (t : State) : t.Wanes p (t.updPort p fun P => { P with owed := 0 }) :=
    .updPort t p (.ofEq rfl rfl rfl) fun _ => .ofEq rfl rfl
  have w := owed ((s.dropElements p).trainsDown p ds)
  exact ⟨fun c => (w.port p).mcTrains c (own c), fun d hd q c => (w.port q).snapshots c d (forgotten d hd q c)⟩

/-- The command unit and the element list of another port come from the element list that is dropped. -/
theorem State.listsDown_unit (s : State) (p : PortId) (ds : List Did) :
    (s.listsDown p ds).cmdUnit = (s.dropElements p).cmdUnit ∧
      ∀ q, q ≠ p → ((s.listsDown p ds).port q).elements = ((s.dropElements p).port q).elements := by
  have trains := State.trainsDown_keeps (s.dropElements p) p ds
  refine ⟨trains.restField State.cmdUnit fun _ => rfl, fun q hq => ?_⟩
  unfold State.listsDown
  rw [State.updPort_port_ne _ _ hq]
  exact trains.portField Port.elements (fun _ => rfl) q

/-! ### Records, bids and trains -/

section

variable (s : State) (p : PortId)

theorem State.flushedDown_wanes (ds : List Did) : s.Wanes p (s.flushedDown ds) := (s.flushedDown_keeps ds).wanes_of_flush p

/-- The share of the grant engine comes first, and what it ended stays gone. -/
theorem State.blocksDown_wanes : (s.recordsDown p).Wanes p (s.blocksDown p) := by
  rw [State.blocksDown_stages]
  exact (State.marksDown_wanes _ p _).trans ((State.flushedDown_wanes _ p _).trans (State.listsDown_wanes _ p _))

theorem State.blocksDown_trains : (∀ d c, (s.blocksDown p).train p d c = .idle) ∧
    (∀ c, (s.blocksDown p).mcTrain p c = ⟨.idle, 0⟩) ∧
    ∀ d, s.mapsTo d p = true → ∀ q, (∀ c, (s.blocksDown p).train q d c = .idle) ∧
      ∀ c, DidSet.has ((s.blocksDown p).mcTrain q c).snapshot d = false := by
  rw [State.blocksDown_stages]
  generalize s.recordsDown p = r
  obtain ⟨own, mapped⟩ := r.marksDown_trains p (s.didsOf p)
  generalize r.marksDown p (s.didsOf p) = m at own mapped
  have later := (m.flushedDown_wanes p (s.didsOf p)).trans (State.listsDown_wanes _ p (s.didsOf p))
  obtain ⟨mcOwn, mcMapped⟩ := (m.flushedDown (s.didsOf p)).listsDown_mcTrains p (s.didsOf p)
  refine ⟨fun d c => (later.port p).trains d c (own d c), mcOwn, fun d hd q => ⟨fun c => ?_, fun c => ?_⟩⟩
  · exact (later.port q).trains d c (mapped d ((s.mem_didsOf p d).2 hd) q c)
  · exact mcMapped d ((s.mem_didsOf p d).2 hd) q c

theorem State.blocksDown_records {d : Did} (hd : s.mapsTo d p = true) (c : GClass) :
    (∀ q, (s.blocksDown p).grant q d c = none) ∧ ∀ q, bidOf q ((s.blocksDown p).bids d c) = none := by
  obtain ⟨grants, bids⟩ := s.recordsDown_empties p hd c
  have w := s.blocksDown_wanes p
  exact ⟨fun q => (w.port q).grants d c (grants q), fun q => w.bids d c q (bids q)⟩

/-- The sources that held a record or a bid for a DID of the port drew their refusals (R86, R87). -/
theorem State.blocksDown_refusals {d : Did} (hd : s.mapsTo d p = true) {q : PortId} (hq : q ≠ p) (hu : s.isUp q = true)
    (c : GClass) : (s.grant q d c ≠ none → s.RefusedOrLost (s.blocksDown p) q ⟨c, d, .revoked⟩) ∧
      (bidOf q (s.bids d c) ≠ none → s.RefusedOrLost (s.blocksDown p) q ⟨c, d, .destDown⟩) := by
  obtain ⟨grants, bids⟩ := s.recordsDown_empties p hd c
  have answers := s.recordsDown_answers p
  have w := s.blocksDown_wanes p
  exact ⟨fun h => ((answers.revoked q d c hq hu h).resolve_left fun k => k (grants q)).later hq w,
    fun h => ((answers.downed q d c hq hu h).resolve_left fun k => k (bids q)).later hq w⟩

/-! ### Markers and queues -/

/-- What the arrival unit leaves before the flush: markers made for the ended trains `ks`, and those of the DIDs of `p`
discarded (R104, R105). -/
structure State.MarksMade (ks : List MarkerKey) (m : State) : Prop where
  use : m.markerUse = s.markerUse + min ks.length (64 - s.markerUse)
  owed : m.owedMarkers = (s.owedMarkers ++ (ks.drop (64 - s.markerUse)).filter
    fun k => !decide (k ∈ s.owedMarkers)).filter fun k => !s.mapsTo k.did p
  queue : ∀ d c, m.queue d c = s.queue d c ++ marksTo d c (ks.take (64 - s.markerUse))
  reach : ∀ d, m.reachable d = s.reachable d

theorem State.sourceDownKeys_congr {s t : State} (p : PortId) (map : ∀ d, (t.did d).map = (s.did d).map)
    (ht : (t.port p).trains = (s.port p).trains) (hm : (t.port p).mcTrains = (s.port p).mcTrains) :
    t.sourceDownKeys p = s.sourceDownKeys p := by
  have maps (d : Did) : t.mapsTo d p = s.mapsTo d p := by
    unfold State.mapsTo State.portOf
    rw [map]
  have train (d : Did) (c : Cls) : t.train p d c = s.train p d c := by
    unfold State.train Port.train
    rw [ht]
  have mc (c : GClass) : t.mcTrain p c = s.mcTrain p c := by
    unfold State.mcTrain
    rw [hm]
  unfold State.sourceDownKeys
  simp only [maps, train, mc]

theorem State.marksDown_made : s.MarksMade p (s.sourceDownKeys p) ((s.recordsDown p).marksDown p (s.didsOf p)) := by
  have records := s.recordsDown_keeps p
  generalize s.recordsDown p = r at records
  have keys : r.sourceDownKeys p = s.sourceDownKeys p :=
    State.sourceDownKeys_congr p (records.didField DidState.map fun _ => rfl)
      (records.portField Port.trains (fun _ => rfl) p) (records.portField Port.mcTrains (fun _ => rfl) p)
  have use : r.markerUse = s.markerUse := records.restField State.markerUse fun _ => rfl
  have owed : r.owedMarkers = s.owedMarkers := records.restField State.owedMarkers fun _ => rfl
  have queue (d : Did) (c : Cls) : r.queue d c = s.queue d c := by
    unfold State.queue
    rw [records.didField DidState.queues (fun _ => rfl) d]
  obtain ⟨made, madeOwed, madeQueue⟩ := r.makeMarks_marked (r.sourceDownKeys_ended p).nodup _ rfl
  obtain ⟨downUse, downDids⟩ := r.marksDown_rest p (s.didsOf p)
  have downOwed := r.marksDown_owed p (s.didsOf p)
  rw [keys] at made madeOwed madeQueue downUse downDids downOwed
  rw [use] at made madeOwed madeQueue
  rw [owed] at madeOwed
  refine ⟨downUse.trans made, ?_, fun d c => ?_, fun d => ?_⟩
  · rw [downOwed, madeOwed]
    refine List.filter_congr fun k _ => ?_
    by_cases h : s.mapsTo k.did p = true
    · rw [h, decide_eq_true ((s.mem_didsOf p _).2 h)]
    · rw [Bool.eq_false_iff.2 h, decide_eq_false fun x => h ((s.mem_didsOf p _).1 x)]
  · rw [State.queue_congr downDids, madeQueue, queue]
    rfl
  · exact ((r.marksDown_keeps p _).reachable (fun _ => rfl) (fun _ => rfl) d).trans
      (records.reachable (fun _ => rfl) (fun _ => rfl) d)

end

end Sys2Proof.Machine
end

section
/-! PROOFS. The flush within a port-down, and the port-down with the end of its event. -/

namespace Sys2Proof.Machine

/-! ### The flush within a port-down -/

section

variable (s : State) (p : PortId)

/-- The marker stores and the credits of port `q` in the queues of the DIDs of `p`. -/
def State.storesDown : Nat := ((s.didsOf p).map fun d => (s.did d).marks).sum

def State.creditsDown (q : PortId) : Nat := ((s.didsOf p).map fun d => (s.queue d .c0).countP (QEntry.isFrom q)).sum

/-- What a port-down makes of the queues, the markers and the credits. -/
structure State.FlushedTo (m w : State) : Prop where
  made : s.MarksMade p (s.sourceDownKeys p) m
  marks : (m.returnMarks (s.storesDown p)).SameMarks (s.didsOf p) w
  queues : ∀ d, s.mapsTo d p = true → (∀ c, w.queue d c = []) ∧
    (w.did d).counters = (s.did d).counters.addFlush (s.did d).queued
  credits : ∀ q, s.creditsDown p q ≤ (s.port q).held → (w.port q).held = (s.port q).held - s.creditsDown p q ∧
    (q ≠ p → (w.port q).owed = (s.port q).owed + if (s.port q).link = .up then s.creditsDown p q else 0)

theorem State.sourceDownKeys_outside {d : Did} (hd : s.mapsTo d p = true) (c : Cls) (n : Nat) :
    marksTo d c ((s.sourceDownKeys p).take n) = [] := by
  refine List.eq_nil_iff_forall_not_mem.2 fun e he => ?_
  obtain ⟨k, hk, rfl, -⟩ := mem_marksTo.1 he
  have outside := ((s.sourceDownKeys_ended p).1 k).1 (List.mem_of_mem_take hk)
  rw [outside.2.1] at hd
  cases hd

theorem State.blocksDown_flushed : ∃ m, s.FlushedTo p m (s.blocksDown p) := by
  refine ⟨(s.recordsDown p).marksDown p (s.didsOf p), ?_⟩
  have made := s.marksDown_made p
  rw [State.blocksDown_stages]
  have records := s.recordsDown_keeps p
  have marks := (s.recordsDown p).marksDown_keeps p (s.didsOf p)
  have port {α : Type} (g : Port → α) (hr : ∀ P, g (View.records.port P) = g P) (hm : ∀ P, g (View.marks.port P) = g P) q :=
    (marks.portField g hm q).trans (records.portField g hr q)
  have held := port Port.held (fun _ => rfl) fun _ => rfl
  have owed := port Port.owed (fun _ => rfl) fun _ => rfl
  have link := port Port.link (fun _ => rfl) fun _ => rfl
  have counters d : (((s.recordsDown p).marksDown p (s.didsOf p)).did d).counters = (s.did d).counters :=
    (marks.didField DidState.counters (fun _ => rfl) d).trans (records.didField DidState.counters (fun _ => rfl) d)
  generalize (s.recordsDown p).marksDown p (s.didsOf p) = m at made held owed link counters
  have queues : ∀ d ∈ s.didsOf p, (m.did d).queues = (s.did d).queues := fun d hd => PerClass.eq_of_get fun c => by
    have queue := made.queue d c
    rw [s.sourceDownKeys_outside p ((s.mem_didsOf p d).1 hd), List.append_nil] at queue
    exact queue
  have avoids : m.Avoids (s.didsOf p) := fun k hk hd => by
    rw [made.owed, List.mem_filter, (s.mem_didsOf p _).1 hd] at hk
    exact Bool.false_ne_true hk.2
  obtain ⟨flushed, each⟩ := State.flushedDown_flushes avoids (fun _ h => h) ((List.nodup_finRange 32).filter _)
  have stores : ((s.didsOf p).map fun d => (m.did d).marks).sum = s.storesDown p :=
    congrArg List.sum (List.map_congr_left fun d hd => by unfold DidState.marks; rw [queues d hd])
  have credits q : ((s.didsOf p).map fun d => (m.queue d .c0).countP (QEntry.isFrom q)).sum = s.creditsDown p q :=
    congrArg List.sum (List.map_congr_left fun d hd => by unfold State.queue; rw [queues d hd])
  change m.Flushes _ ((s.didsOf p).map fun d => (m.did d).marks).sum
    (fun q => ((s.didsOf p).map fun d => (m.queue d .c0).countP (QEntry.isFrom q)).sum) _ at flushed
  rw [stores] at flushed
  simp only [credits] at flushed
  have lists := (m.flushedDown (s.didsOf p)).listsDown_keeps p (s.didsOf p)
  have listsOwed {q : PortId} (hq : q ≠ p) := (m.flushedDown (s.didsOf p)).listsDown_owed hq (s.didsOf p)
  generalize m.flushedDown (s.didsOf p) = f at flushed each lists listsOwed
  have same : f.SameMarks (s.didsOf p) (f.listsDown p (s.didsOf p)) :=
    ⟨lists.restField State.markerUse fun _ => rfl, lists.restField State.owedMarkers fun _ => rfl,
      lists.reachable (fun _ => rfl) fun _ => rfl, fun d c _ => by
        unfold State.queue
        rw [lists.didField DidState.queues (fun _ => rfl) d]⟩
  refine ⟨made, flushed.marks.trans same, fun d hd => ?_, fun q hn => ?_⟩
  · have hd := (s.mem_didsOf p d).2 hd
    obtain ⟨queue, counted⟩ := each d hd
    refine ⟨fun c => ?_, ?_⟩
    · have emptied := queue c
      rw [if_pos hd] at emptied
      unfold State.queue at emptied ⊢
      rw [lists.didField DidState.queues (fun _ => rfl) d, emptied]
    · rw [lists.didField DidState.counters (fun _ => rfl) d, counted, if_pos hd, counters]
      unfold DidState.queued
      rw [queues d hd]
  · have released := flushed.ports q
    rw [Port.released_iterate _ (by rw [held]; exact hn)] at released
    refine ⟨?_, fun hq => ?_⟩
    · rw [lists.portField Port.held (fun _ => rfl) q, released, ← held]
    · rw [listsOwed hq, released, ← owed, ← link]

end

/-! ### The command unit -/

/-- A response that waits for port `p` is discarded, and one that waits for another port takes a store the element cells
of `p` free (R157, R159). -/
theorem State.blocksDown_unit (s : State) (p : PortId) :
    (∀ f, s.cmdUnit = .holding p f → (s.blocksDown p).cmdUnit = .ready) ∧
    ∀ q f, s.cmdUnit = .holding q f → q ≠ p → s.isUp q = true → s.elementUse ≤ 32 →
      if (s.port p).elements = [] then (s.blocksDown p).cmdUnit = .holding q f
      else (s.blocksDown p).cmdUnit = .ready ∧ f ∈ ((s.blocksDown p).port q).elements := by
  rw [State.blocksDown_stages]
  have records := s.recordsDown_keeps p
  have marks := (s.recordsDown p).marksDown_keeps p (s.didsOf p)
  have flush := ((s.recordsDown p).marksDown p (s.didsOf p)).flushedDown_keeps (s.didsOf p)
  have rest {α : Type} (g : State → α) (hr : ∀ x, g (View.records.rest x.bare) = g x)
      (hm : ∀ x, g (View.marks.rest x.bare) = g x) (hf : ∀ x, g (View.flush.rest x.bare) = g x) :=
    (flush.restField g hf).trans ((marks.restField g hm).trans (records.restField g hr))
  have port {α : Type} (g : Port → α) (hr : ∀ P, g (View.records.port P) = g P) (hm : ∀ P, g (View.marks.port P) = g P)
      (hf : ∀ P, g (View.flush.port P) = g P) q :=
    (flush.portField g hf q).trans ((marks.portField g hm q).trans (records.portField g hr q))
  have unit := rest State.cmdUnit (fun _ => rfl) (fun _ => rfl) fun _ => rfl
  have use := rest State.elementUse (fun _ => rfl) (fun _ => rfl) fun _ => rfl
  have link := port Port.link (fun _ => rfl) (fun _ => rfl) fun _ => rfl
  have elements := port Port.elements (fun _ => rfl) (fun _ => rfl) fun _ => rfl
  generalize ((s.recordsDown p).marksDown p (s.didsOf p)).flushedDown (s.didsOf p) = f at unit use link elements
  obtain ⟨listed, others⟩ := f.listsDown_unit p (s.didsOf p)
  rw [listed]
  refine ⟨fun r h => State.dropElements_own (unit.trans h), fun q r h hq hu huse => ?_⟩
  rw [others q hq, ← elements]
  refine State.dropElements_other (unit.trans h) hq ?_ (by rw [use]; exact huse)
  unfold State.isUp at hu ⊢
  rw [link]
  exact hu

/-! ### Drain conditions -/

/-- A port-down itself changes no destination entry (R152). -/
theorem State.blocksDown_map (s : State) (p : PortId) (d : Did) : ((s.blocksDown p).did d).map = (s.did d).map := by
  rw [State.blocksDown_stages]
  have field {V : View} {x y : State} (h : x.Keeps V y) (hV : ∀ D : DidState, (V.did D).map = D.map) :
      (y.did d).map = (x.did d).map := h.didField DidState.map hV d
  exact (field (State.listsDown_keeps _ p _) fun _ => rfl).trans ((field (State.flushedDown_keeps _ _) fun _ => rfl).trans
    ((field (State.marksDown_keeps _ p _) fun _ => rfl).trans (field (s.recordsDown_keeps p) fun _ => rfl)))


/-- The DIDs of the port that went down are drained (R147, R152). -/
theorem State.blocksDown_drained {s : State} {p : PortId} (hc : s.Covered) {d : Did} (hd : s.mapsTo d p = true) :
    (s.blocksDown p).drained d = true := by
  obtain ⟨m, flushed⟩ := s.blocksDown_flushed p
  have covered : (s.blocksDown p).Covered := by
    rw [State.blocksDown_stages]
    have r := hc.recordsDown p
    have m := r.ofKeeps (State.marksDown_keeps _ p (s.didsOf p)) (fun _ => rfl) fun _ => rfl
    have f := m.ofKeeps (State.flushedDown_keeps _ (s.didsOf p)) (fun _ => rfl) fun _ => rfl
    exact f.ofKeeps (State.listsDown_keeps _ p (s.didsOf p)) (fun _ => rfl) fun _ => rfl
  have records (q : PortId) (c : GClass) := (s.blocksDown_records p hd c).1 q
  obtain ⟨queues, -⟩ := flushed.queues d hd
  have owed : ∀ k ∈ (s.blocksDown p).owedMarkers, k.did ≠ d := by
    rintro k hk rfl
    rw [flushed.marks.owed] at hk
    have made := (m.returnMarks_serving _).owed k hk
    rw [flushed.made.owed, List.mem_filter, hd] at made
    exact Bool.false_ne_true made.2
  generalize s.blocksDown p = w at covered records queues owed
  have queued : w.hasQueued d = false := by
    have length (c : Cls) : ((w.did d).queues.get c).length = 0 := List.length_eq_zero_iff.2 (queues c)
    have sum : (w.did d).queued = 0 := by
      unfold DidState.queued
      rw [show (w.did d).queues.c0.length = 0 from length .c0, show (w.did d).queues.c1.length = 0 from length .c1,
        show (w.did d).queues.c2.length = 0 from length .c2, show (w.did d).queues.c3.length = 0 from length .c3]
    unfold State.hasQueued
    rw [sum]
    rfl
  have grant : w.hasGrant d = false := by
    unfold State.hasGrant
    simp [records]
  have outbox : w.hasOutbox d = false := by
    unfold State.hasOutbox
    simp only [List.any_eq_false]
    rintro q - h
    obtain ⟨x, hx, named⟩ := List.any_eq_true.1 h
    obtain rfl := of_decide_eq_true named
    exact covered q x hx (records q x.cls)
  have noOwed : w.hasOwed d = false := by
    unfold State.hasOwed
    simp only [List.any_eq_false, decide_eq_true_eq]
    exact owed
  unfold State.drained
  rw [queued, grant, outbox, noOwed]
  rfl

end Sys2Proof.Machine
end

section
/-! PROOFS. A port-down with the end of its event is a port-down in every block (R25). -/

namespace Sys2Proof.Machine

/-- Between `s` and `v` nothing changed but the link of port `p`, its settings and monitors, and, where a command was
taken, credits and the command queue (R25, R155). -/
structure State.Near (s : State) (p : PortId) (v : State) : Prop where
  others : ∀ q, q ≠ p → ∃ h o, v.port q = { s.port q with held := h, owed := o }
  grants : (v.port p).grants = (s.port p).grants
  outbox : (v.port p).grantOutbox = (s.port p).grantOutbox
  elements : (v.port p).elements = (s.port p).elements
  trains : (v.port p).trains = (s.port p).trains
  mcTrains : (v.port p).mcTrains = (s.port p).mcTrains
  dids : v.dids = s.dids
  use : v.markerUse = s.markerUse
  owed : v.owedMarkers = s.owedMarkers
  elementUse : v.elementUse = s.elementUse
  unit : v.cmdUnit = s.cmdUnit

/-- Port `p` of `s` is out of UP in `v`, and its blocks have not taken their shares yet. -/
structure State.Falls (s : State) (p : PortId) (v : State) : Prop extends s.Near p v where
  down : (v.port p).link ≠ .up

/-- What follows a port-down of `p` in its event, on the way from `w` to `t`: `p` stays out of UP and gets nothing to
hold, and drained moves, refusals and notices aside nothing changes for the others. -/
structure State.Lingers (w : State) (p : PortId) (t : State) : Prop where
  wanes : w.Wanes p t
  idle : t.Idle p
  follows : ∀ d, (w.did d).Retargets (t.did d)
  queues : ∀ d c, t.queue d c = w.queue d c
  counters : ∀ d, (t.did d).counters = (w.did d).counters
  use : t.markerUse = w.markerUse
  owedMarkers : t.owedMarkers = w.owedMarkers
  held : ∀ q, (t.port q).held = (w.port q).held
  owed : ∀ q, q ≠ p → (t.port q).owed = (w.port q).owed
  elements : ∀ q, q ≠ p → ∃ fs, (t.port q).elements = (w.port q).elements ++ fs

/-- What of every port neither a change of port `p` beside its traffic nor a command taken shows. -/
theorem State.Near.portField {s v : State} {p : PortId} (h : s.Near p v) {α : Type} (g : Port → α) (hg : ∀ (P : Port) a b, g { P with held := a, owed := b } = g P)
    (own : g (v.port p) = g (s.port p)) (q : PortId) : g (v.port q) = g (s.port q) := by
  by_cases hq : q = p
  · rw [hq]; exact own
  · obtain ⟨a, b, e⟩ := h.others q hq
    rw [e, hg]

/-- A destination that is not MOVING keeps its entry and the result of its last move (R148). -/
theorem DidState.Retargets.still {D E : DidState} (h : D.Retargets E) (hm : D.map.isMoving = false) :
    E.map = D.map ∧ E.lastMove = D.lastMove ∧ E.moveDone = D.moveDone := by
  rcases h with same | ⟨_, _, _, _, moving, -⟩
  · exact same
  · rw [moving] at hm
    cases hm

namespace State.Falls

variable {s v : State} {p : PortId}

theorem did (h : s.Falls p v) (d : Did) : v.did d = s.did d := State.did_congr h.dids d

theorem mapsTo (h : s.Falls p v) (d : Did) (q : PortId) : v.mapsTo d q = s.mapsTo d q := by
  unfold State.mapsTo State.portOf
  rw [h.did]

theorem didsOf (h : s.Falls p v) : v.didsOf p = s.didsOf p := by
  unfold State.didsOf
  exact List.filter_congr fun d _ => h.mapsTo d p

theorem isUp (h : s.Falls p v) {q : PortId} (hq : q ≠ p) : v.isUp q = s.isUp q := by
  obtain ⟨a, b, e⟩ := h.others q hq
  unfold State.isUp
  rw [e]

/-- A DID that does not map to `p` can be reached as before. -/
theorem reachable (h : s.Falls p v) {d : Did} (hd : s.mapsTo d p = false) : v.reachable d = s.reachable d := by
  unfold State.reachable State.portOf
  rw [h.did]
  cases hm : (s.did d).map.port? with
  | none => rfl
  | some q =>
    refine h.isUp fun hq => ?_
    have maps : s.mapsTo d p = true := by
      unfold State.mapsTo State.portOf
      rw [hm, hq]
      exact decide_eq_true rfl
    rw [maps] at hd
    cases hd

theorem queue (h : s.Falls p v) (d : Did) (c : Cls) : v.queue d c = s.queue d c := State.queue_congr h.dids d c

theorem keys (h : s.Falls p v) : v.sourceDownKeys p = s.sourceDownKeys p :=
  State.sourceDownKeys_congr p (fun d => by rw [h.did]) h.trains h.mcTrains

theorem grant (h : s.Falls p v) (q : PortId) (d : Did) (c : GClass) : v.grant q d c = s.grant q d c := by
  unfold State.grant Port.grant
  rw [h.portField Port.grants (fun _ _ _ => rfl) h.grants q]

theorem covered (h : s.Falls p v) (hc : s.Covered) : v.Covered := by
  intro q x hx
  rw [h.portField Port.grantOutbox (fun _ _ _ => rfl) h.outbox q] at hx
  rw [h.grant]
  exact hc q x hx

/-- Refusals drawn since the fall are refusals drawn since the state before. -/
theorem refused (h : s.Falls p v) {t : State} {q : PortId} (hq : q ≠ p) {r : RefusalEntry} (k : v.RefusedOrLost t q r) :
    s.RefusedOrLost t q r := by
  obtain ⟨a, b, e⟩ := h.others q hq
  unfold State.RefusedOrLost at *
  rw [e] at k
  exact k

end State.Falls

/-! ### The clauses of a port-down -/

section

variable {s v t : State} {p : PortId}

/-- What the DIDs mapped to the port held is gone (R87, R105, R123, R140, R148, R152). -/
theorem State.Falls.destinations (fall : s.Falls p v) (later : (v.blocksDown p).Lingers p t)
    (cut : ∀ d port target time code, (s.did d).map = .moving port target time code → (v.blocksDown p).drained d = true →
      s.drained d = false → (t.did d).map = .mapped target ∧ (t.did d).lastMove = .drained ∧ (t.did d).moveDone = true)
    (d : Did) (hd : s.mapsTo d p = true) :
    (∀ c : Cls, t.queue d c = []) ∧ (∀ c : GClass, t.bids d c = []) ∧ (∀ k ∈ t.owedMarkers, k.did ≠ d) ∧
    (t.did d).counters.flush = countUpBy (s.did d).counters.flush (s.did d).queued ∧
    (∀ q : PortId, (∀ c : GClass, t.grant q d c = none) ∧ (∀ c : Cls, t.train q d c = .idle) ∧
      ∀ c : GClass, DidSet.has (t.mcTrain q c).snapshot d = false) ∧
    (∀ target time code, (s.did d).map = .moving p target time code → s.GrantLaw → s.drained d = false →
      (t.did d).map = .mapped target ∧ (t.did d).lastMove = .drained ∧ (t.did d).moveDone = true) ∧
    ∀ (q : PortId) (c : GClass), q ≠ p → s.isUp q = true →
      (s.grant q d c ≠ none → s.RefusedOrLost t q ⟨c, d, .revoked⟩) ∧
      (bidOf q (s.bids d c) ≠ none → s.RefusedOrLost t q ⟨c, d, .destDown⟩) := by
  have hv : v.mapsTo d p = true := (fall.mapsTo d p).trans hd
  obtain ⟨m, flushed⟩ := v.blocksDown_flushed p
  obtain ⟨queues, counters⟩ := flushed.queues d hv
  obtain ⟨-, -, trains⟩ := v.blocksDown_trains p
  have records c := v.blocksDown_records p hv c
  refine ⟨fun c => (later.queues d c).trans (queues c), fun c => ?_, fun k hk e => ?_, ?_, fun q => ⟨fun c => ?_, fun c => ?_,
    fun c => ?_⟩, fun target time code hm law hu => ?_, fun q c hq hu => ?_⟩
  · refine List.eq_nil_iff_forall_not_mem.2 fun b hb => ?_
    exact (bidOf_eq_none _ _).1 (later.wanes.bids d c b.src ((records c).2 b.src)) b hb rfl
  · rw [later.owedMarkers, flushed.marks.owed] at hk
    have made := (m.returnMarks_serving _).owed k hk
    rw [flushed.made.owed, List.mem_filter, e, hv] at made
    exact Bool.false_ne_true made.2
  · rw [later.counters, counters, fall.did]
    rfl
  · exact (later.wanes.port q).grants d c ((records c).1 q)
  · exact (later.wanes.port q).trains d c ((trains d hv q).1 c)
  · exact (later.wanes.port q).snapshots c d ((trains d hv q).2 c)
  · exact cut d p target time code hm (State.blocksDown_drained (fall.covered law.covered) hv) hu
  · obtain ⟨revoked, downed⟩ := v.blocksDown_refusals p hv hq ((fall.isUp hq).trans hu) c
    have bids : v.bids d c = s.bids d c := by
      unfold State.bids
      rw [fall.did]
    rw [fall.grant] at revoked
    rw [bids] at downed
    exact ⟨fun h => fall.refused hq ((revoked h).later hq later.wanes), fun h => fall.refused hq ((downed h).later hq later.wanes)⟩

/-- The queues of the other DIDs, and the markers placed in them (R102, R104, R105). -/
theorem State.Falls.marking (fall : s.Falls p v) (later : (v.blocksDown p).Lingers p t) :
    ∃ m, v.MarksMade p (s.sourceDownKeys p) m ∧ (m.returnMarks (v.storesDown p)).owedMarkers = t.owedMarkers ∧
      (m.returnMarks (v.storesDown p)).markerUse = t.markerUse ∧
      ∀ d c, s.mapsTo d p = false → t.queue d c = (m.returnMarks (v.storesDown p)).queue d c := by
  obtain ⟨m, flushed⟩ := v.blocksDown_flushed p
  have made := flushed.made
  rw [fall.keys] at made
  refine ⟨m, made, (later.owedMarkers.trans flushed.marks.owed).symm, (later.use.trans flushed.marks.use).symm,
    fun d c hd => (later.queues d c).trans (flushed.marks.queue d c fun h => ?_)⟩
  have := (v.mem_didsOf p d).1 h
  rw [fall.mapsTo, hd] at this
  cases this

/-- The markers of the DIDs that do not map to the port (R100, R102, R104, R105). -/
theorem State.Falls.markers (fall : s.Falls p v) (later : (v.blocksDown p).Lingers p t) :
    (∀ (d : Did) (c : Cls), s.mapsTo d p = false → ∃ ms, t.queue d c = s.queue d c ++ ms ∧
      ∀ e ∈ ms, ∃ src mc, e = .mark src mc ∧ (src = p ∨ ⟨src, d, c, mc⟩ ∈ s.owedMarkers)) ∧
    (∀ k ∈ s.sourceDownKeys p, s.reachable k.did = true → .mark k.src k.mc ∈ t.queue k.did k.cls ∨ k ∈ t.owedMarkers) ∧
    (s.owedMarkers = [] → s.markerUse + (s.sourceDownKeys p).length ≤ 64 → t.owedMarkers = [] ∧
      ∀ (d : Did) (c : Cls), s.mapsTo d p = false → t.queue d c = s.queue d c ++ marksTo d c (s.sourceDownKeys p)) := by
  obtain ⟨m, made, owed, use, queue⟩ := fall.marking later
  have keys := (s.sourceDownKeys_ended p).1
  have ofSource : ∀ k ∈ s.sourceDownKeys p, k.src = p ∧ s.mapsTo k.did p = false := fun k hk =>
    ⟨((keys k).1 hk).1, ((keys k).1 hk).2.1⟩
  have madeQueue := made.queue
  have madeOwed := made.owed
  simp only [fall.use, fall.owed, fall.queue, fall.mapsTo] at madeQueue madeOwed
  set n := v.storesDown p
  have serves := m.returnMarks_serving n
  refine ⟨fun d c hd => ?_, fun k hk hr => ?_, fun none room => ?_⟩
  · obtain ⟨ms, grown, placed⟩ := serves.grows d c
    refine ⟨marksTo d c ((s.sourceDownKeys p).take (64 - s.markerUse)) ++ ms, by
      rw [queue d c hd, grown, madeQueue, List.append_assoc], fun e he => ?_⟩
    rcases List.mem_append.1 he with he | he
    · obtain ⟨k, hk, -, -, rfl⟩ := mem_marksTo.1 he
      exact ⟨k.src, k.mc, rfl, .inl (ofSource k (List.mem_of_mem_take hk)).1⟩
    · obtain ⟨k, hk, rfl, rfl, rfl⟩ := placed e he
      refine ⟨k.src, k.mc, rfl, ?_⟩
      rw [madeOwed] at hk
      rcases List.mem_append.1 (List.mem_filter.1 hk).1 with hk | hk
      · exact .inr hk
      · exact .inl (ofSource k (List.mem_of_mem_drop (List.mem_filter.1 hk).1)).1
  · obtain ⟨-, hd⟩ := ofSource k hk
    have placed : .mark k.src k.mc ∈ m.queue k.did k.cls ∨ k ∈ m.owedMarkers := by
      rw [madeQueue, madeOwed]
      rw [← List.take_append_drop (64 - s.markerUse) (s.sourceDownKeys p)] at hk
      rcases List.mem_append.1 hk with hk | hk
      · exact .inl (List.mem_append_right _ (mem_marksTo.2 ⟨k, hk, rfl, rfl, rfl⟩))
      · right
        refine List.mem_filter.2 ⟨?_, by rw [hd]; rfl⟩
        by_cases hm : k ∈ s.owedMarkers
        · exact List.mem_append_left _ hm
        · exact List.mem_append_right _ (List.mem_filter.2 ⟨hk, by rw [decide_eq_false hm]; rfl⟩)
    rw [queue _ _ hd, ← owed]
    rcases placed with h | h
    · obtain ⟨ms, grown, -⟩ := serves.grows k.did k.cls
      rw [grown]
      exact .inl (List.mem_append_left _ h)
    · exact (serves.kept k h (by rw [made.reach, fall.reachable hd]; exact hr)).symm
  · have all : (s.sourceDownKeys p).length ≤ 64 - s.markerUse := by omega
    rw [none, List.drop_of_length_le all] at madeOwed
    obtain ⟨owed', queue'⟩ := State.returnMarks_nil n (s := m) madeOwed
    refine ⟨owed.symm.trans owed', fun d c hd => ?_⟩
    rw [queue d c hd, queue', madeQueue, List.take_of_length_le all]

/-- The owed markers that the returned stores place, where every one of them can be served (R100, R102, R104, R105). -/
theorem State.Falls.served (fall : s.Falls p v) (later : (v.blocksDown p).Lingers p t) (lists : s.ListLaw)
    (law : s.DestDownLaw) {waiting : List MarkerKey} {free : Nat} (hfree : free = 64 - s.markerUse)
    (hback : v.storesDown p ≤ s.markerUse)
    (hwaiting : waiting = (s.owedMarkers ++ ((s.sourceDownKeys p).drop free).filter
      fun k => !decide (k ∈ s.owedMarkers)).filter fun k => !s.mapsTo k.did p) :
    t.owedMarkers = waiting.drop (v.storesDown p) ∧
    t.markerUse = s.markerUse + min (s.sourceDownKeys p).length free + min (v.storesDown p) waiting.length - v.storesDown p ∧
    ∀ (d : Did) (c : Cls), s.mapsTo d p = false → t.queue d c = s.queue d c ++
      marksTo d c ((s.sourceDownKeys p).take free ++ waiting.take (v.storesDown p)) := by
  obtain ⟨m, made, owed, use, queue⟩ := fall.marking later
  have madeQueue := made.queue
  have madeOwed := made.owed
  have madeUse := made.use
  simp only [fall.use, fall.owed, fall.queue, fall.mapsTo, ← hfree] at madeQueue madeOwed madeUse
  rw [← hwaiting] at madeOwed
  obtain ⟨-, bound, -⟩ := lists
  have reach : ∀ k ∈ m.owedMarkers, m.reachable k.did = true := fun k hk => by
    rw [madeOwed, hwaiting] at hk
    obtain ⟨hk, outside⟩ := List.mem_filter.1 hk
    have hd : s.mapsTo k.did p = false := by simpa using outside
    rw [made.reach, fall.reachable hd]
    refine Bool.not_eq_false _ |>.mp fun unreachable => ?_
    obtain ⟨-, -, noOwed, idle⟩ := law k.did unreachable
    rcases List.mem_append.1 hk with hk | hk
    · exact noOwed k hk rfl
    · obtain ⟨-, -, ⟨-, busy⟩ | ⟨-, g, -, -, named⟩⟩ :=
        ((s.sourceDownKeys_ended p).1 k).1 (List.mem_of_mem_drop (List.mem_filter.1 hk).1)
      · exact busy ((idle p).2.1 k.cls)
      · rw [(idle p).2.2 g] at named
        cases named
  obtain ⟨owed', use', queue'⟩ := State.returnMarks_placing (s := m) (v.storesDown p) (by rw [madeUse]; omega)
    (by rw [madeUse]; omega) reach
  rw [madeOwed] at owed' use' queue'
  rw [madeUse] at use'
  refine ⟨owed.symm.trans owed', use.symm.trans use', fun d c hd => ?_⟩
  rw [queue d c hd, queue', madeQueue, marksTo_append, List.append_assoc]

end

/-! ### The port-down -/

theorem sum_filter {α : Type} (f : α → Nat) (b : α → Bool) (xs : List α) :
    ((xs.filter b).map f).sum = (xs.map fun x => if b x then f x else 0).sum := by
  induction xs with
  | nil => rfl
  | cons x xs ih =>
    rw [List.filter_cons, List.map_cons, List.sum_cons, ← ih]
    split_ifs
    · rw [List.map_cons, List.sum_cons]
    · rw [Nat.zero_add]

/-- A fall out of UP with the share of every block and the end of its event is a port-down, with the commands `gone` taken
in it (R25). -/
theorem State.Falls.wentDown {s v t : State} {p : PortId} (fall : s.Falls p v) (later : (v.blocksDown p).Lingers p t)
    (unit : s.cmdUnit ≠ .ready → t.cmdUnit = (v.blocksDown p).cmdUnit)
    (cut : ∀ d port target time code, (s.did d).map = .moving port target time code → (v.blocksDown p).drained d = true →
      s.drained d = false → (t.did d).map = .mapped target ∧ (t.did d).lastMove = .drained ∧ (t.did d).moveDone = true)
    {gone : List CmdCell} (queue : s.cmdQueue = gone ++ t.cmdQueue)
    (taken : ∀ q n, n = gone.countP (fun x => decide (x.src = q)) → n ≤ (s.port q).held →
      (v.port q).held = (s.port q).held - n ∧ (q ≠ p → (v.port q).owed = (s.port q).owed + if s.isUp q then n else 0)) :
    s.WentDown t p := by
  obtain ⟨⟨records, bids⟩, elements, owed⟩ := later.idle
  obtain ⟨trains, mcTrains, -⟩ := v.blocksDown_trains p
  obtain ⟨own, other⟩ := v.blocksDown_unit p
  obtain ⟨m, flushed⟩ := v.blocksDown_flushed p
  obtain ⟨grown, kept, placed⟩ := fall.markers later
  have ended := s.sourceDownKeys_ended p
  refine ⟨⟨records.2.1, records.2.2, elements, owed, fun d c => ⟨records.1 d c, bids d c⟩,
    fun d c => (later.wanes.port p).trains d c (trains d c), fun c => (later.wanes.port p).mcTrains c (mcTrains c)⟩,
    fun d hd => ?_, fall.destinations later cut, ⟨gone, queue, fun q n hn hle => ?_⟩, fun f hf => ?_,
    fun q f hf hq hu huse => ?_, grown, fun d c mc hd hr busy => ?_, fun ks hks none room => ?_,
    fun ks waiting free back hks lists law hfree hback hle hwaiting => ?_⟩
  · have map : ((v.blocksDown p).did d).map = (s.did d).map := (v.blocksDown_map p d).trans (by rw [fall.did])
    exact ((later.follows d).still (by rw [map]; exact hd)).1.trans map
  · have credits : ((allDids.filter fun d => s.mapsTo d p).map fun d => (s.queue d .c0).countP (QEntry.isFrom q)).sum =
        v.creditsDown p q := by
      unfold State.creditsDown
      rw [fall.didsOf]
      exact congrArg List.sum (List.map_congr_left fun d _ => by rw [fall.queue])
    rw [credits] at hn
    obtain ⟨held, owing⟩ := taken q _ rfl (by omega)
    obtain ⟨heldDown, owedDown⟩ := flushed.credits q (by rw [held]; omega)
    refine ⟨by rw [later.held, heldDown, held]; omega, fun hq => ?_⟩
    rw [later.owed q hq, owedDown hq, owing hq]
    have up : ((v.port q).link = .up) = (s.isUp q = true) := by
      rw [← fall.isUp hq, v.isUp_iff]
    simp only [up]
    split_ifs <;> omega
  · rw [unit (by rw [hf]; exact fun h => by cases h), own f (by rw [fall.unit, hf])]
  · have held := other q f (by rw [fall.unit, hf]) hq ((fall.isUp hq).trans hu) (by rw [fall.elementUse]; exact huse)
    rw [fall.elements] at held
    rw [unit (by rw [hf]; exact fun h => by cases h)]
    split_ifs at held ⊢ with hp
    · exact held
    · obtain ⟨fs, grown⟩ := later.elements q hq
      rw [grown]
      exact ⟨held.1, List.mem_append_left _ held.2⟩
  · have key : (⟨p, d, c, mc⟩ : MarkerKey) ∈ s.sourceDownKeys p := (ended.1 _).2 ⟨rfl, hd, busy⟩
    exact kept _ key hr
  · obtain rfl := hks.unique ended
    obtain ⟨noOwed, queues⟩ := placed none room
    refine ⟨noOwed, fun d c hd => (queues d c hd).trans (congrArg _ (List.map_congr_left fun k hk => ?_))⟩
    rw [((ended.1 k).1 (List.mem_filter.1 hk).1).1]
  · obtain rfl := hks.unique ended
    have stores : back = v.storesDown p := by
      rw [hback]
      unfold State.storesDown
      rw [fall.didsOf]
      simp only [fall.did]
      exact (sum_filter _ _ _).symm
    subst stores
    exact fall.served later lists law hfree hle hwaiting

end Sys2Proof.Machine
end

section
/-! PROOFS. The causes of a port-down, with the events that follow one in the same command (R25, R28, R35, R38, R39). -/

namespace Sys2Proof.Machine

/-! ### What an entry to a link state leaves of the traffic -/

/-- Of the traffic of a port `Q` has what `P` had. -/
structure Port.SameTraffic (P Q : Port) : Prop where
  grants : Q.grants = P.grants
  grantOutbox : Q.grantOutbox = P.grantOutbox
  refusalOutbox : Q.refusalOutbox = P.refusalOutbox
  elements : Q.elements = P.elements
  trains : Q.trains = P.trains
  mcTrains : Q.mcTrains = P.mcTrains
  held : Q.held = P.held
  owed : Q.owed = P.owed

namespace Port.SameTraffic

theorem refl (P : Port) : P.SameTraffic P := ⟨rfl, rfl, rfl, rfl, rfl, rfl, rfl, rfl⟩

theorem trans {P Q R : Port} (h : P.SameTraffic Q) (k : Q.SameTraffic R) : P.SameTraffic R :=
  ⟨k.grants.trans h.grants, k.grantOutbox.trans h.grantOutbox, k.refusalOutbox.trans h.refusalOutbox,
    k.elements.trans h.elements, k.trains.trans h.trains, k.mcTrains.trans h.mcTrains, k.held.trans h.held,
    k.owed.trans h.owed⟩

theorem enterAcquiring (P : Port) : P.SameTraffic P.enterAcquiring := ⟨rfl, rfl, rfl, rfl, rfl, rfl, rfl, rfl⟩

theorem enterFaulted (P : Port) : P.SameTraffic P.enterFaulted := ⟨rfl, rfl, rfl, rfl, rfl, rfl, rfl, rfl⟩

theorem enterDisabled (P : Port) : P.SameTraffic P.enterDisabled := ⟨rfl, rfl, rfl, rfl, rfl, rfl, rfl, rfl⟩

theorem enterTest (t : TestSettings) (P : Port) : P.SameTraffic (P.enterTest t) := ⟨rfl, rfl, rfl, rfl, rfl, rfl, rfl, rfl⟩

theorem left {entry : Port → Port} {P : Port} (h : P.SameTraffic (entry P)) (why : DownCause) :
    P.SameTraffic (P.left entry why) :=
  h.trans ⟨rfl, rfl, rfl, rfl, rfl, rfl, rfl, rfl⟩

theorem judged (P : Port) : P.SameTraffic P.judged := by
  have faulted := (enterFaulted P).left .fault
  have acquiring := (enterAcquiring P).left .fault
  unfold Port.judged
  cases P.link with
  | disabled | test => exact refl P
  | faulted =>
    cases P.faultCause
    · exact acquiring
    · exact refl P
  | acquiring | waiting | up =>
    cases P.faultCause
    · exact refl P
    · exact faulted

end Port.SameTraffic

/-- A judgement of the fault causes brings no port to UP (R35, R36). -/
theorem Port.judged_down {P : Port} (h : P.link ≠ .up) : P.judged.link ≠ .up := by
  have faulted : (P.left Port.enterFaulted .fault).link ≠ .up := (by decide : LinkState.faulted ≠ .up)
  have acquiring : (P.left Port.enterAcquiring .fault).link ≠ .up := (by decide : LinkState.acquiring ≠ .up)
  unfold Port.judged
  cases hl : P.link with
  | up => exact absurd hl h
  | disabled | test => exact h
  | faulted =>
    cases P.faultCause
    · exact acquiring
    · exact h
  | acquiring | waiting =>
    cases P.faultCause
    · exact h
    · exact faulted

/-! ### What follows a port-down -/

namespace State.Lingers

variable {w t u : State} {p : PortId}

theorem trans (h : w.Lingers p t) (k : t.Lingers p u) : w.Lingers p u where
  wanes := h.wanes.trans k.wanes
  idle := k.idle
  follows d := (h.follows d).trans (k.follows d)
  queues d c := (k.queues d c).trans (h.queues d c)
  counters d := (k.counters d).trans (h.counters d)
  use := k.use.trans h.use
  owedMarkers := k.owedMarkers.trans h.owedMarkers
  held q := (k.held q).trans (h.held q)
  owed q hq := (k.owed q hq).trans (h.owed q hq)
  elements q hq := by
    obtain ⟨fs, e⟩ := h.elements q hq
    obtain ⟨gs, e'⟩ := k.elements q hq
    exact ⟨fs ++ gs, by rw [e', e, List.append_assoc]⟩

theorem refl (idle : w.Idle p) : w.Lingers p w :=
  ⟨.refl w p, idle, fun _ => .inl ⟨rfl, rfl, rfl⟩, fun _ _ => rfl, fun _ => rfl, rfl, rfl, fun _ => rfl, fun _ _ => rfl,
    fun _ _ => ⟨[], (List.append_nil _).symm⟩⟩

/-- A write of port `p` that leaves its traffic. -/
theorem updPort (idle : w.Idle p) {f : Port → Port} (same : (w.port p).SameTraffic (f (w.port p))) :
    w.Lingers p (w.updPort p f) := by
  have others {q : PortId} (hq : q ≠ p) := w.updPort_port_ne f hq
  obtain ⟨⟨⟨grants, outbox, refusals⟩, bids⟩, elements, owed⟩ := idle
  refine ⟨.updPort w p (.ofEq same.grants same.trains same.mcTrains) fun h => absurd rfl h, ⟨⟨?_, fun d => ?_⟩, ?_, ?_⟩,
    fun d => .inl ?_, fun d c => State.queue_congr (w.updPort_dids p f) d c, fun d => ?_, rfl, rfl, fun q => ?_,
    fun q hq => by rw [others hq], fun q hq => ⟨[], by rw [others hq, List.append_nil]⟩⟩
  · rw [State.updPort_port_self]
    refine ⟨fun d c => ?_, same.grantOutbox.trans outbox, same.refusalOutbox.trans refusals⟩
    unfold Port.grant
    rw [same.grants]
    exact grants d c
  · rw [State.updPort_did]; exact bids d
  · rw [State.updPort_port_self]; exact same.elements.trans elements
  · rw [State.updPort_port_self]; exact same.owed.trans owed
  · rw [State.updPort_did]; exact ⟨rfl, rfl, rfl⟩
  · rw [State.updPort_did]
  · by_cases hq : q = p
    · rw [hq, State.updPort_port_self]; exact same.held
    · rw [others hq]

/-- The end of an event: drained moves and notices (R148, R174, R177). -/
theorem eventEnd (b : State) (idle : w.Idle p) (down : (w.port p).link ≠ .up) : w.Lingers p (eventEnd b w) := by
  have drained := b.drainStep_calm w
  have keeps := b.drainStep_keepsCutover w
  have wanes := eventEnd_wanes b w p
  obtain ⟨-, -, grow⟩ := eventEnd_lists b w
  have settled := drained.idle down idle
  have still : ((b.drainStep w).port p).link ≠ .up := by rw [drained.link]; exact down
  have follows := fun d => (drained.did d).2
  unfold Machine.eventEnd at *
  generalize b.drainStep w = x at *
  have noticed := noticeStep_keeps b x
  have dids := noticeStep_dids b x
  have did d := State.did_congr dids d
  have idled : (noticeStep b x).Idle p := by
    unfold noticeStep
    dsimp only
    split_ifs
    · refine (State.offerNotices_calm _).idle ?_ (x.judged_idle b settled)
      rw [State.mapPorts_port, (Port.judgeNotice_clears _ _).1]
      exact still
    · exact x.judged_idle b settled
  refine ⟨wanes, idled, fun d => by rw [did]; exact follows d, fun d c => ?_, fun d => ?_, ?_, ?_, fun q => ?_, fun q _ => ?_,
    fun q _ => grow q⟩
  · rw [State.queue_congr dids]
    unfold State.queue
    rw [keeps.didField DidState.queues (fun _ => rfl) d]
  · rw [did, keeps.didField DidState.counters (fun _ => rfl) d]
  · exact (noticed.restField State.markerUse fun _ => rfl).trans (keeps.restField State.markerUse fun _ => rfl)
  · exact (noticed.restField State.owedMarkers fun _ => rfl).trans (keeps.restField State.owedMarkers fun _ => rfl)
  · exact (noticed.portField Port.held (fun _ => rfl) q).trans (keeps.portField Port.held (fun _ => rfl) q)
  · exact (noticed.portField Port.owed (fun _ => rfl) q).trans (keeps.portField Port.owed (fun _ => rfl) q)

/-- A response is offered after a port-down (R157, R159). -/
theorem offerResponse (idle : w.Idle p) (down : (w.port p).link ≠ .up) (q : PortId) (f : Frame) :
    w.Lingers p (w.offerResponse q f) := by
  have idled := (w.offerResponse_calm q f).idle down idle
  have wanes : w.Wanes p (w.offerResponse q f) ∧ ∀ x, ∃ fs, ((w.offerResponse q f).port x).elements = (w.port x).elements ++ fs := by
    have none (x : PortId) : ∃ fs, (w.port x).elements = (w.port x).elements ++ fs := ⟨[], (List.append_nil _).symm⟩
    obtain ⟨-, e⟩ | ⟨-, -, e⟩ | ⟨-, -, e⟩ := w.offerResponse_cases q f <;> rw [e]
    · exact ⟨.refl w p, none⟩
    · refine ⟨.ofKeeps (w.placeElement_keepsElements q f) (fun _ => rfl) (fun _ => rfl) (fun _ => rfl) (fun _ => rfl)
        (fun _ => rfl) fun _ => rfl, fun x => ?_⟩
      have port : (w.placeElement q f).port x = (w.updPort q fun P => { P with elements := P.elements ++ [f] }).port x := rfl
      rw [port, State.updPort_port]
      split_ifs with hx
      · exact ⟨[f], rfl⟩
      · exact none x
    · exact ⟨⟨fun _ => .refl _, fun _ _ _ => id, fun _ _ => .refl _⟩, none⟩
  have keeps : w.Keeps .elements (w.offerResponse q f) := by
    obtain ⟨-, e⟩ | ⟨-, -, e⟩ | ⟨-, -, e⟩ := w.offerResponse_cases q f <;> rw [e]
    · exact .refl _ _
    · exact w.placeElement_keepsElements q f
    · exact .ofRest rfl rfl rfl
  have did d : (w.offerResponse q f).did d = w.did d := keeps.didField id (fun _ => rfl) d
  refine ⟨wanes.1, idled, fun d => .inl (by rw [did]; exact ⟨rfl, rfl, rfl⟩), fun d c => ?_, fun d => by rw [did],
    keeps.restField State.markerUse fun _ => rfl, keeps.restField State.owedMarkers fun _ => rfl,
    keeps.portField Port.held fun _ => rfl, fun q _ => keeps.portField Port.owed (fun _ => rfl) q, fun q _ => wanes.2 q⟩
  unfold State.queue
  rw [did]

end State.Lingers

/-! ### A port that leaves UP -/

/-- A command taken, and changes of port `p` beside its traffic, lead from `s` to `x`. -/
theorem State.Near.updPort {s x : State} {p : PortId} (h : s.Near p x) {f : Port → Port}
    (same : (x.port p).SameTraffic (f (x.port p))) : s.Near p (x.updPort p f) := by
  refine ⟨fun q hq => by rw [x.updPort_port_ne f hq]; exact h.others q hq, ?_, ?_, ?_, ?_, ?_,
    (x.updPort_dids p f).trans h.dids, h.use, h.owed, h.elementUse, h.unit⟩ <;> rw [State.updPort_port_self]
  · exact same.grants.trans h.grants
  · exact same.grantOutbox.trans h.outbox
  · exact same.elements.trans h.elements
  · exact same.trains.trans h.trains
  · exact same.mcTrains.trans h.mcTrains

theorem State.Near.refl (s : State) (p : PortId) : s.Near p s :=
  ⟨fun _ _ => ⟨_, _, rfl⟩, rfl, rfl, rfl, rfl, rfl, rfl, rfl, rfl, rfl, rfl⟩

theorem State.Near.drained {s x : State} {p : PortId} (h : s.Near p x) (d : Did) : x.drained d = s.drained d :=
  State.drained_congr d h.dids h.owed (h.portField Port.grants (fun _ _ _ => rfl) h.grants)
    (h.portField Port.grantOutbox (fun _ _ _ => rfl) h.outbox)

/-- On the way from `x` to `y`, before the end of the event, port `p` left UP and the blocks took their shares. -/
def State.Drops (x : State) (p : PortId) (y : State) : Prop :=
  ∃ f g : Port → Port, (x.port p).SameTraffic (f (x.port p)) ∧ (f (x.port p)).link ≠ .up ∧
    (∀ P : Port, P.SameTraffic (g P)) ∧ (∀ P : Port, P.link ≠ .up → (g P).link ≠ .up) ∧
    y = ((x.updPort p f).blocksDown p).updPort p g

theorem State.leaveFor_drops {x : State} {p : PortId} (hu : x.isUp p = true) {entry : Port → Port}
    (h : Port.IsEntry entry) (same : ∀ P : Port, P.SameTraffic (entry P)) (why : DownCause) :
    x.Drops p (x.leaveFor p entry why) := by
  obtain ⟨-, e⟩ | ⟨hn, -⟩ := x.leaveFor_cases p entry why
  · refine ⟨fun P => { entry P with lastDown := why }, id, (same _).trans ⟨rfl, rfl, rfl, rfl, rfl, rfl, rfl, rfl⟩, h.link _,
      .refl, fun _ => id, ?_⟩
    rw [e]
    exact (State.updPort_self _ p rfl).symm
  · rw [hu] at hn
    cases hn

theorem State.Drops.judgeFault {x y : State} {p : PortId} (h : x.Drops p y) : x.Drops p (y.judgeFault p) := by
  obtain ⟨f, g, same, down, light, stays, rfl⟩ := h
  set w := (x.updPort p f).blocksDown p with hw
  have out : (w.port p).link ≠ .up := by
    obtain ⟨calm, -⟩ := (x.updPort p f).blocksDown_calm p (by rw [State.updPort_port_self]; exact down)
    rw [hw, calm.link, State.updPort_port_self]
    exact down
  refine ⟨f, fun P => (g P).judged, same, down, fun P => (light P).trans (.judged _),
    fun P hP => Port.judged_down (stays P hP), ?_⟩
  rw [State.judgeFault_alone (.inl (by rw [State.updPort_port_self]; exact stays _ out)), State.updPort_updPort]

/-- A drop of a port that was changed beside its traffic before. -/
theorem State.Drops.ofUpdPort {s y : State} {p : PortId} {f : Port → Port} (same : (s.port p).SameTraffic (f (s.port p)))
    (h : (s.updPort p f).Drops p y) : s.Drops p y := by
  obtain ⟨f', g, same', down, light, stays, e⟩ := h
  rw [State.updPort_port_self] at same' down
  rw [State.updPort_updPort] at e
  exact ⟨fun P => f' (f P), g, same.trans same', down, light, stays, e⟩

/-- A judgement of the fault causes of a port in UP: nothing, or a port-down (R35). -/
theorem State.judgeFault_drops {x : State} {p : PortId} (hu : (x.port p).link = .up) :
    x.judgeFault p = x ∨ x.Drops p (x.judgeFault p) := by
  obtain ⟨-, -, e⟩ | ⟨hl, -, -⟩ | e := x.judgeFault_cases p
  · rw [e]
    exact .inr (State.leaveFor_drops ((x.isUp_iff p).2 hu) Port.enterFaulted_isEntry .enterFaulted _)
  · rw [hu] at hl
    cases hl
  · exact .inl e

theorem State.toAcquiring_drops {x : State} {p : PortId} (hu : (x.port p).link = .up) (why : DownCause) :
    x.Drops p (x.toAcquiring p why) :=
  (State.leaveFor_drops ((x.isUp_iff p).2 hu) Port.enterAcquiring_isEntry .enterAcquiring why).judgeFault

/-- A port-down leaves the port out of UP with nothing to hold, and so does the end of its event. -/
theorem State.Drops.idle {b x y : State} {p : PortId} (h : x.Drops p y) :
    (eventEnd b y).Idle p ∧ ((eventEnd b y).port p).link ≠ .up := by
  obtain ⟨f, g, -, down, light, stays, rfl⟩ := h
  obtain ⟨calm, idle⟩ := (x.updPort p f).blocksDown_calm p (by rw [State.updPort_port_self]; exact down)
  have out : ((((x.updPort p f).blocksDown p).updPort p g).port p).link ≠ .up := by
    rw [State.updPort_port_self]
    refine stays _ ?_
    rw [calm.link, State.updPort_port_self]
    exact down
  refine ⟨(State.Lingers.eventEnd b (State.Lingers.updPort idle (light _)).idle out).idle, ?_⟩
  rw [(eventEnd_keeps b _).portField Port.link fun _ => rfl]
  exact out

/-- A port-down with the end of its event, and what lingers in the same command (R25). -/
theorem State.Drops.wentDown {s x y b t : State} {p : PortId} (near : s.Near p x) (h : x.Drops p y)
    (hb : ∀ d, b.drained d = s.drained d)
    (rest : (eventEnd b y).Lingers p t)
    (unit : s.cmdUnit ≠ .ready → t.cmdUnit = (eventEnd b y).cmdUnit) {gone : List CmdCell}
    (queue : s.cmdQueue = gone ++ t.cmdQueue)
    (taken : ∀ q n, n = gone.countP (fun x => decide (x.src = q)) → n ≤ (s.port q).held →
      (x.port q).held = (s.port q).held - n ∧ (q ≠ p → (x.port q).owed = (s.port q).owed + if s.isUp q then n else 0)) :
    s.WentDown t p := by
  obtain ⟨f, g, same, down, light, stays, rfl⟩ := h
  have fall : s.Falls p (x.updPort p f) := ⟨near.updPort same, by rw [State.updPort_port_self]; exact down⟩
  obtain ⟨calm, idle⟩ := (x.updPort p f).blocksDown_calm p fall.down
  have map := (x.updPort p f).blocksDown_map p
  have out : (((x.updPort p f).blocksDown p).port p).link ≠ .up := by rw [calm.link]; exact fall.down
  have credits q n (hn : n = gone.countP (fun x => decide (x.src = q))) (hle : n ≤ (s.port q).held) :
      ((x.updPort p f).port q).held = (s.port q).held - n ∧
        (q ≠ p → ((x.updPort p f).port q).owed = (s.port q).owed + if s.isUp q then n else 0) := by
    obtain ⟨held, owed⟩ := taken q n hn hle
    refine ⟨?_, fun hq => by rw [x.updPort_port_ne f hq]; exact owed hq⟩
    by_cases hq : q = p
    · rw [hq] at held ⊢
      rw [State.updPort_port_self]
      exact same.held.trans held
    · rw [x.updPort_port_ne f hq]
      exact held
  have written : ((x.updPort p f).blocksDown p).Lingers p (((x.updPort p f).blocksDown p).updPort p g) :=
    .updPort idle (light _)
  have outWritten : ((((x.updPort p f).blocksDown p).updPort p g).port p).link ≠ .up := by
    rw [State.updPort_port_self]
    exact stays _ out
  have ended := State.Lingers.eventEnd b written.idle outWritten
  refine fall.wentDown (written.trans (ended.trans rest)) (fun h => ?_) (fun d port target time code hm drained before => ?_)
    queue credits
  · exact (unit h).trans (eventEnd_lists b _).1
  · have same : (((x.updPort p f).blocksDown p).updPort p g).drained d = true := by
      refine Eq.trans (State.updPort_drained _ p d g (fun P => (light P).grants) fun P => (light P).grantOutbox) drained
    have moving : ((((x.updPort p f).blocksDown p).updPort p g).did d).map = .moving port target time code := by
      rw [State.updPort_did, map, fall.did]
      exact hm
    have cut := eventEnd_cuts moving ((hb d).trans before) same
    obtain ⟨m, l, r⟩ := (rest.follows d).still (by rw [cut.1]; rfl)
    exact ⟨m.trans cut.1, l.trans cut.2.1, r.trans cut.2.2⟩

end Sys2Proof.Machine
end

section
/-! PROOFS. Every cause of a port-down, and the state that no run reaches in which one event of two leaves a held response
without its port's element cells (R25, R28, R30 to R39). -/

namespace Sys2Proof.Machine

/-! ### Events at the link -/

theorem State.Drops.cmdQueue {x y : State} {p : PortId} (h : x.Drops p y) : y.cmdQueue = x.cmdQueue := by
  obtain ⟨f, g, -, -, -, -, rfl⟩ := h
  exact ((x.updPort p f).blocksDown_lists p).queue

theorem eventEnd_link (b y : State) (p : PortId) : ((eventEnd b y).port p).link = (y.port p).link :=
  (eventEnd_keeps b y).portField Port.link (fun _ => rfl) p

/-- No command is taken: the credits are those of the state before. -/
theorem none_taken {s x : State} (h : ∀ q, (x.port q).held = (s.port q).held ∧ (x.port q).owed = (s.port q).owed)
    {p : PortId} (q : PortId) (n : Nat) (hn : n = ([] : List CmdCell).countP fun x => decide (x.src = q))
    (_ : n ≤ (s.port q).held) : (x.port q).held = (s.port q).held - n ∧
      (q ≠ p → (x.port q).owed = (s.port q).owed + if s.isUp q then n else 0) := by
  obtain rfl : n = 0 := hn
  obtain ⟨held, owed⟩ := h q
  exact ⟨held, fun _ => by rw [owed]; split_ifs <;> rfl⟩

/-- An event of one port-down and nothing more. -/
theorem State.Drops.event {s y : State} {p : PortId} (h : s.Drops p y) :
    s.WentDown (eventEnd s y) p ∧ (eventEnd s y).cmdQueue = s.cmdQueue := by
  have queue : (eventEnd s y).cmdQueue = s.cmdQueue := (eventEnd_lists s y).2.1.trans h.cmdQueue
  exact ⟨h.wentDown (.refl s p) (fun _ => rfl) (.refl h.idle.1) (fun _ => rfl) (gone := []) queue.symm
    (none_taken fun _ => ⟨rfl, rfl⟩), queue⟩

theorem State.toAcquiring_went {s : State} {p : PortId} {f : Port → Port} (hu : (s.port p).link = .up)
    (hl : (f (s.port p)).link = (s.port p).link) (same : (s.port p).SameTraffic (f (s.port p))) (why : DownCause) :
    s.WentDown (eventEnd s ((s.updPort p f).toAcquiring p why)) p ∧
      (eventEnd s ((s.updPort p f).toAcquiring p why)).cmdQueue = s.cmdQueue :=
  ((State.toAcquiring_drops (by rw [State.updPort_port_self, hl]; exact hu) why).ofUpdPort same).event

/-- A cell that takes its port out of UP: the fourth failure in a row, or the partner (R4, R24, R26). -/
theorem State.cellArrives_went {s : State} {p : PortId} {c : RawCell} (hu : (s.port p).link = .up)
    (hd : ((s.cellArrives p c).port p).link ≠ .up) :
    s.WentDown (s.cellArrives p c) p ∧ (s.cellArrives p c).cmdQueue = s.cmdQueue := by
  cases hp : headerPasses c.header with
  | false =>
    have failed : s.cellArrives p c = eventEnd s (s.headerFails p) := Host.Outcome.next.inj (exec_headerFails s p c hp (.inl hu))
    rw [failed] at hd ⊢
    rw [State.headerFails_eq] at hd ⊢
    split_ifs at hd ⊢
    · exact State.toAcquiring_went hu rfl ⟨rfl, rfl, rfl, rfl, rfl, rfl, rfl, rfl⟩ _
    · rw [eventEnd_link, State.updPort_port_self] at hd
      exact absurd hu hd
  | true =>
    cases ha : (IngressHeader.read c.header).aligned with
    | false =>
      have lost := Host.Outcome.next.inj (exec_partnerLost s p c _ rfl hp hu ha)
      change s.cellArrives p c = _ at lost
      rw [lost]
      exact State.toAcquiring_went hu rfl ⟨rfl, rfl, rfl, rfl, rfl, rfl, rfl, rfl⟩ _
    | true =>
      refine absurd ?_ hd
      unfold State.cellArrives
      simp only [hu, hp, ha, if_true]
      set x := s.updPort p fun P => { Port.takeFlags (IngressHeader.read c.header) P with failCount := 0 }
      have up : (x.port p).link = .up := by
        rw [State.updPort_port_self]
        exact hu
      have bids := State.takeBids_calm x p (IngressHeader.read c.header).bids up
      have cell := State.takeCell_calm _ p (IngressHeader.read c.header) c (by rw [bids.link p, up])
      rw [eventEnd_link, cell.link, bids.link, up]

/-- A slip that takes its port out of UP (R28). -/
theorem State.slips_went {s : State} {p : PortId} {k : SlipKind} (hu : (s.port p).link = .up)
    (hd : ((eventEnd s (s.slips p k)).port p).link ≠ .up) :
    s.WentDown (eventEnd s (s.slips p k)) p ∧ (eventEnd s (s.slips p k)).cmdQueue = s.cmdQueue := by
  rw [s.slips_counted k (.inr hu)] at hd ⊢
  split_ifs at hd ⊢
  · rw [eventEnd_link, State.updPort_port_self] at hd
    exact absurd hu hd
  · exact State.toAcquiring_went hu rfl ⟨rfl, rfl, rfl, rfl, rfl, rfl, rfl, rfl⟩ _

/-- A quality completion that takes its port out of UP (R33, R35). -/
theorem State.qualityCompletes_went {s : State} {p : PortId} {figure : BitVec 6} (hu : (s.port p).link = .up)
    (hd : ((eventEnd s (s.qualityCompletes p figure)).port p).link ≠ .up) :
    s.WentDown (eventEnd s (s.qualityCompletes p figure)) p ∧
      (eventEnd s (s.qualityCompletes p figure)).cmdQueue = s.cmdQueue := by
  unfold State.qualityCompletes at hd ⊢
  rw [if_neg (by rw [hu]; decide)] at hd ⊢
  obtain e | drops := State.judgeFault_drops (x := s.updPort p (Port.takeFigure figure)) (p := p)
    (by rw [State.updPort_port_self]; exact hu)
  · rw [e, eventEnd_link, State.updPort_port_self] at hd
    exact absurd hu hd
  · exact (drops.ofUpdPort ⟨rfl, rfl, rfl, rfl, rfl, rfl, rfl, rfl⟩).event

/-! ### Commands -/

/-- The command that is taken changes credits and the command queue (R155, R159). -/
theorem State.takeCommand_near (s : State) (cmd : CmdCell) (rest : List CmdCell) (p : PortId) :
    s.Near p (s.takeCommand cmd rest) := by
  obtain ⟨h, o, e⟩ := s.takeCommand_port cmd rest p
  refine ⟨fun q _ => s.takeCommand_port cmd rest q, ?_, ?_, ?_, ?_, ?_, rfl, rfl, rfl, rfl, rfl⟩ <;> rw [e]

theorem State.takeCommand_credits (s : State) (cmd : CmdCell) (rest : List CmdCell) (q : PortId) (n : Nat)
    (hn : n = [cmd].countP fun x => decide (x.src = q)) (hle : n ≤ (s.port q).held) :
    ((s.takeCommand cmd rest).port q).held = (s.port q).held - n ∧
      ((s.takeCommand cmd rest).port q).owed = (s.port q).owed + if s.isUp q then n else 0 := by
  have port : (s.takeCommand cmd rest).port q = (s.releaseCredit cmd.src).port q :=
    State.port_congr (by simp only [State.takeCommand]) q
  have up : s.isUp q = decide ((s.port q).link = .up) := rfl
  rw [port, State.releaseCredit_port, up]
  by_cases hq : cmd.src = q
  · obtain rfl : n = 1 := by simpa [hq] using hn
    subst hq
    rw [if_pos ⟨rfl, by omega⟩]
    by_cases hl : (s.port cmd.src).link = .up <;> simp [hl]
  · obtain rfl : n = 0 := by simpa [hq] using hn
    rw [if_neg fun h => hq h.1.symm]
    simp

/-- `t` is `u`, or port `p` is in UP there, or an event led from `u` to it in which `p` left UP. -/
def State.Ends (p : PortId) (u t : State) : Prop :=
  (u.port p).link = .up → (t.port p).link ≠ .up → ∃ y, u.Drops p y ∧ t = eventEnd u y

theorem State.Ends.refl (p : PortId) (u : State) : State.Ends p u u := fun hu hd => absurd hu hd

/-- A command whose judgement takes port `p` out of UP by an event of its own. -/
theorem commandStep_went {s : State} {p : PortId} {want : Option Code} {judge : CmdCell → State → Reply}
    (hj : ∀ cmd u, State.Ends p u (judge cmd u).state) (hu : (s.port p).link = .up)
    (hd : ((commandStep want (fun c t => judgeCommand c judge t) s).port p).link ≠ .up) :
    s.WentDown (commandStep want (fun c t => judgeCommand c judge t) s) p ∧
      (commandStep want (fun c t => judgeCommand c judge t) s).cmdQueue = s.cmdQueue.drop 1 := by
  obtain e | ⟨cmd, rest, ready, queue, -, e⟩ := commandStep_cases want (fun c t => judgeCommand c judge t) s
  · rw [e] at hd
    exact absurd hu hd
  · rw [e] at hd ⊢
    have up : ((s.takeCommand cmd rest).port p).link = .up := by rw [(s.takeCommand_calm cmd rest).link, hu]
    rw [(State.offerResponse_calm _ _ _).link] at hd
    have near := s.takeCommand_near cmd rest p
    have credits := s.takeCommand_credits cmd rest
    have taken : (s.takeCommand cmd rest).cmdQueue = rest := rfl
    generalize s.takeCommand cmd rest = u at *
    obtain ⟨y, drops, reply⟩ : ∃ y, u.Drops p y ∧ (judgeCommand cmd judge u).state = eventEnd u y := by
      unfold judgeCommand at hd ⊢
      split_ifs at hd ⊢
      · exact hj cmd u up hd
      · exact absurd up hd
    rw [reply]
    have offered (f : Frame) : ((eventEnd u y).offerResponse cmd.src f).cmdQueue = rest := by
      have kept : ((eventEnd u y).offerResponse cmd.src f).cmdQueue = (eventEnd u y).cmdQueue := by
        obtain ⟨-, k⟩ | ⟨-, -, k⟩ | ⟨-, -, k⟩ := (eventEnd u y).offerResponse_cases cmd.src f
        · rw [k]
        · rw [k]; rfl
        · rw [k]
      exact kept.trans ((eventEnd_lists u y).2.1.trans (drops.cmdQueue.trans taken))
    refine ⟨drops.wentDown near near.drained (.offerResponse drops.idle.1 drops.idle.2 _ _) (fun h => absurd ready h)
      (gone := [cmd]) (by rw [offered, queue]; rfl) fun q n hn hle => ⟨(credits q n hn hle).1, fun _ => (credits q n hn hle).2⟩,
      by rw [offered, queue]; rfl⟩

/-- A PORT-SET that takes its port out of UP (R35, R39, R42). -/
theorem State.applyPortSet_drops {u : State} {p : PortId} {cmd : CmdCell} (hu : (u.port p).link = .up)
    (hd : ((u.applyPortSet p cmd).port p).link ≠ .up) : u.Drops p (u.applyPortSet p cmd) := by
  have same : (u.port p).SameTraffic { u.port p with settings := newSettings cmd (u.port p).settings } :=
    ⟨rfl, rfl, rfl, rfl, rfl, rfl, rfl, rfl⟩
  refine State.Drops.ofUpdPort (f := fun P => { P with settings := newSettings cmd P.settings }) same ?_
  unfold State.applyPortSet State.applyEnable at *
  set x := u.updPort p fun P => { P with settings := newSettings cmd P.settings } with hx
  have up : (x.port p).link = .up := by
    rw [hx, State.updPort_port_self]
    exact hu
  dsimp only at hd ⊢
  split_ifs at hd ⊢ with hdis hacq
  · exact (State.leaveFor_drops ((x.isUp_iff p).2 up) Port.enterDisabled_isEntry .enterDisabled _).judgeFault
  · simp only [up, Bool.and_eq_true, decide_eq_true_eq] at hacq
    exact absurd hacq.2 (by decide)
  · obtain e | drops := State.judgeFault_drops up
    · rw [e] at hd
      exact absurd up hd
    · exact drops

theorem doPortSet_ends (p : PortId) (cmd : CmdCell) (u : State) : State.Ends p u (doPortSet cmd u).state := by
  refine withValue_relates (.refl p u) _ fun q => ?_
  split_ifs
  · exact .refl p u
  · exact .refl p u
  · exact .refl p u
  · intro hu hd
    change ((eventEnd u (u.applyPortSet q cmd)).port p).link ≠ .up at hd
    by_cases hq : p = q
    · subst hq
      rw [eventEnd_link] at hd
      exact ⟨_, State.applyPortSet_drops hu hd, rfl⟩
    · rw [Port.link_ofLasting ((eventEnd_turns (u.applyPortSet_turns q cmd).1).1.port p hq)] at hd
      exact absurd hu hd

theorem doTestStart_ends (p : PortId) (cmd : CmdCell) (u : State) : State.Ends p u (doTestStart cmd u).state := by
  refine withValue_relates (.refl p u) _ fun q => withValue_relates (.refl p u) _ fun gen =>
    withValue_relates (.refl p u) _ fun chk => withValue_relates (.refl p u) _ fun base => ?_
  split_ifs
  · exact .refl p u
  · intro hu hd
    by_cases hq : p = q
    · subst hq
      exact ⟨_, State.leaveFor_drops ((u.isUp_iff p).2 hu) (Port.enterTest_isEntry _) (.enterTest _) _, rfl⟩
    · have turned (settings : TestSettings) := (u.leaveFor_turns q .test (Port.enterTest_isEntry settings)).1
      exact absurd ((Port.link_ofLasting ((eventEnd_turns (turned _)).1.port p hq)).trans hu) hd

/-! ### The stuck-line monitor -/

theorem State.takeStuckBits_cons {s : State} {p : PortId} (hl : (s.port p).link ≠ .disabled) (b : Bool) (bits : List Bool) :
    s.takeStuckBits p (b :: bits) = (s.takeStuckBits p [b]).takeStuckBits p bits := by
  conv_lhs => unfold State.takeStuckBits
  conv_rhs => rw [State.takeStuckBits]
  rw [if_neg hl, if_neg hl]
  rfl

/-- Bits at the monitor of a port that is out of UP leave it there, with nothing to hold (R30, R31, R36). -/
theorem State.takeStuckBits_lingers {w : State} {p : PortId} (idle : w.Idle p) (down : (w.port p).link ≠ .up)
    (bits : List Bool) : w.Lingers p (w.takeStuckBits p bits) ∧ (w.takeStuckBits p bits).cmdUnit = w.cmdUnit ∧
      (w.takeStuckBits p bits).cmdQueue = w.cmdQueue := by
  induction bits generalizing w with
  | nil => exact ⟨.refl idle, rfl, rfl⟩
  | cons b bits ih =>
    by_cases hl : (w.port p).link = .disabled
    · unfold State.takeStuckBits
      rw [if_pos hl]
      exact ⟨.refl idle, rfl, rfl⟩
    have stays : ((w.port p).stuckBit b).link ≠ .up := down
    by_cases ha : ((w.port p).stuckBit b).stuck.asserted = (w.port p).stuck.asserted
    · rw [State.takeStuckBit_still hl ha]
      have first : w.Lingers p (w.updPort p (Port.stuckBit b)) := .updPort idle ⟨rfl, rfl, rfl, rfl, rfl, rfl, rfl, rfl⟩
      obtain ⟨rest, unit, queue⟩ := ih first.idle (by rw [State.updPort_port_self]; exact stays)
      exact ⟨first.trans rest, unit, queue⟩
    · have alone : (w.updPort p (Port.stuckBit b)).judgeFault p = w.updPort p fun P => (P.stuckBit b).judged := by
        rw [State.judgeFault_alone (.inl (by rw [State.updPort_port_self]; exact stays)), State.updPort_updPort]
      rw [State.takeStuckBits_cons hl, State.takeStuckBit_turns hl ha, alone]
      have written : w.Lingers p (w.updPort p fun P => (P.stuckBit b).judged) :=
        .updPort idle (Port.SameTraffic.trans (Q := (w.port p).stuckBit b) ⟨rfl, rfl, rfl, rfl, rfl, rfl, rfl, rfl⟩ (.judged _))
      have out : ((w.updPort p fun P => (P.stuckBit b).judged).port p).link ≠ .up := by
        rw [State.updPort_port_self]
        exact Port.judged_down stays
      have ended := State.Lingers.eventEnd w written.idle out
      obtain ⟨unitEnd, queueEnd, -⟩ := eventEnd_lists w (w.updPort p fun P => (P.stuckBit b).judged)
      obtain ⟨rest, unit, queue⟩ := ih ended.idle (by rw [eventEnd_link]; exact out)
      exact ⟨written.trans (ended.trans rest), unit.trans unitEnd, queue.trans queueEnd⟩

/-- Bits at the monitor of a port in UP, where it is not asserted: nothing but the monitor changes up to the bit that
asserts it and takes the port down (R30, R35). -/
theorem State.takeStuckBits_went {s x : State} {p : PortId} (near : s.Near p x) (queue : x.cmdQueue = s.cmdQueue)
    (credits : ∀ q, (x.port q).held = (s.port q).held ∧ (x.port q).owed = (s.port q).owed)
    (hu : (x.port p).link = .up) (ha : (x.port p).stuck.asserted = false) (bits : List Bool)
    (hd : ((x.takeStuckBits p bits).port p).link ≠ .up) :
    s.WentDown (x.takeStuckBits p bits) p ∧ (x.takeStuckBits p bits).cmdQueue = s.cmdQueue := by
  induction bits generalizing x with
  | nil => exact absurd hu hd
  | cons b bits ih =>
    have hl : (x.port p).link ≠ .disabled := by rw [hu]; decide
    have same : (x.port p).SameTraffic ((x.port p).stuckBit b) := ⟨rfl, rfl, rfl, rfl, rfl, rfl, rfl, rfl⟩
    by_cases hb : ((x.port p).stuckBit b).stuck.asserted = (x.port p).stuck.asserted
    · rw [State.takeStuckBit_still hl hb] at hd ⊢
      refine ih (near.updPort same) queue (fun q => ?_) (by rw [State.updPort_port_self]; exact hu)
        (by rw [State.updPort_port_self, hb, ha]) hd
      rw [State.updPort_port]
      split_ifs with hq
      · subst hq
        exact credits q
      · exact credits q
    · have asserted : ((x.port p).stuckBit b).stuck.asserted = true := by
        rw [ha] at hb
        exact Bool.not_eq_false _ |>.mp hb
      have cause : ((x.port p).stuckBit b).faultCause = true := by
        unfold Port.faultCause
        rw [asserted]
        rfl
      have drops : x.Drops p ((x.updPort p (Port.stuckBit b)).judgeFault p) := by
        have port := State.updPort_port_self x p (Port.stuckBit b)
        have faulted : (x.updPort p (Port.stuckBit b)).judgeFault p =
            (x.updPort p (Port.stuckBit b)).leaveFor p Port.enterFaulted .fault := by
          have up : ((x.port p).stuckBit b).link = .up := hu
          unfold State.judgeFault
          dsimp only
          rw [port, up, cause]
          rfl
        rw [faulted]
        exact State.Drops.ofUpdPort same (State.leaveFor_drops (by rw [State.isUp_iff, port]; exact hu)
          Port.enterFaulted_isEntry .enterFaulted _)
      rw [State.takeStuckBits_cons hl, State.takeStuckBit_turns hl hb]
      set y := (x.updPort p (Port.stuckBit b)).judgeFault p
      obtain ⟨idle, down⟩ := drops.idle (b := x)
      obtain ⟨lingers, unit, queued⟩ := State.takeStuckBits_lingers idle down bits
      have queueEnd : ((eventEnd x y).takeStuckBits p bits).cmdQueue = s.cmdQueue :=
        queued.trans ((eventEnd_lists x y).2.1.trans (drops.cmdQueue.trans queue))
      exact ⟨drops.wentDown near near.drained lingers (fun _ => unit) (gone := []) queueEnd.symm
        (none_taken credits), queueEnd⟩

/-! ### Every cause -/

/-- What O19 says of the events, for a port whose stuck-line monitor is not asserted, as LinkLaw has it of every port in
UP. -/
theorem portDown_reaches {c : Instr} {s t : State} {p : PortId} (h : exec c s = .next t)
    (hc : c ∈ [.portSet, .testStart] ∨ (∃ cell, c = .ingressCell p cell) ∨ (∃ k, c = .slip p k) ∨
      (∃ bits, c = .stuckLineAssert p bits) ∨ (∃ bits, c = .stuckBlockEnd p bits) ∨
      ∃ figure, c = .qualityCompletion p figure)
    (hu : (s.port p).link = .up) (ha : (s.port p).stuck.asserted = false) (hd : (t.port p).link ≠ .up) :
    s.WentDown t p ∧ t.cmdQueue = s.cmdQueue.drop (if c ∈ [.portSet, .testStart] then 1 else 0) := by
  rcases hc with hc | ⟨cell, rfl⟩ | ⟨k, rfl⟩ | ⟨bits, rfl⟩ | ⟨bits, rfl⟩ | ⟨figure, rfl⟩
  · rw [if_pos hc]
    simp only [List.mem_cons, List.not_mem_nil, or_false] at hc
    rcases hc with rfl | rfl
    · obtain rfl := Host.Outcome.next.inj h
      exact commandStep_went (doPortSet_ends p) hu hd
    · obtain rfl := Host.Outcome.next.inj h
      exact commandStep_went (doTestStart_ends p) hu hd
  all_goals rw [if_neg (by simp)]
  · obtain rfl := Host.Outcome.next.inj h
    exact State.cellArrives_went hu hd
  · obtain rfl := Host.Outcome.next.inj h
    exact State.slips_went hu hd
  · obtain rfl := Host.Outcome.next.inj h
    exact State.takeStuckBits_went (.refl s p) rfl (fun _ => ⟨rfl, rfl⟩) hu ha bits hd
  · obtain rfl := Host.Outcome.next.inj h
    exact State.takeStuckBits_went (.refl s p) rfl (fun _ => ⟨rfl, rfl⟩) hu ha bits hd
  · obtain rfl := Host.Outcome.next.inj h
    exact State.qualityCompletes_went hu hd

/-- Port 0 in UP with three failures in a row, and a cell whose header fails its check. -/
def failingOn : State := State.reset.updPort 0 fun _ => { Port.reset with link := .up, failCount := 3 }

def failedCell : RawCell := ⟨Vector.replicate 16 0, zeroPayload⟩

theorem witness_portDown_reaches : ∃ t, exec (.ingressCell 0 failedCell) failingOn = .next t ∧ failingOn.WentDown t 0 := by
  have down : ((failingOn.cellArrives 0 failedCell).port 0).link ≠ .up := by decide +kernel
  exact ⟨_, rfl, (portDown_reaches rfl (.inr (.inl ⟨_, rfl⟩)) (by decide +kernel) (by decide +kernel) down).1⟩

end Sys2Proof.Machine
end

section
/-! PROOFS. Two events of one list of bits: the notice of the first stands at the port that the second takes down, and
its store goes to a response that waits for another port (R30, R31, R157, R159, R177). -/

namespace Sys2Proof.Machine

/-- A port in UP whose stuck-line monitor is asserted, one clean block before it clears and with a run behind it that
asserts it again: no run of the element reaches it, LinkLaw rules it out. Its watched condition is the assertion. -/
def clearingPort : Port :=
  { Port.reset with
    link := .up, settings := { Settings.reset with report := true, stuckN := 1, stuckK := 0 },
    stuck := ⟨true, 600, 3, some true, 1023, true⟩, watchMask := 4, watchExpect := 4, watchMatch := true }

/-- The frame that waits for port 1. -/
def waitingFrame : Frame := Vector.replicate 32 0

/-- Port 0 as above and without element cells, port 1 in UP, and a response held for port 1 with one store free. -/
def waitingOn : State :=
  { (State.reset.updPort 0 fun _ => clearingPort).updPort 1 fun _ => { Port.reset with link := .up } with
    cmdUnit := .holding 1 waitingFrame, elementUse := 31 }

/-- The bit that clears the monitor offers a notice to port 0, and the next one takes port 0 down: the held response
takes the store of the notice. -/
theorem waitingOn_ends : ((waitingOn.takeStuckBits 0 [true, true]).port 0).link ≠ .up ∧
    (waitingOn.takeStuckBits 0 [true, true]).cmdUnit = .ready := by decide +kernel

theorem waitingOn_starts : (waitingOn.port 0).link = .up ∧ (waitingOn.port 0).elements = [] ∧
    waitingOn.isUp 1 = true := by decide +kernel

/-- Refutes O19: from `waitingOn`, where port 0 has no element cell, two bits at its monitor take it down, and the
response held for port 1 does not wait any longer, against the sixth clause of `State.WentDown`. What the statement lacks
is the premise that the monitor of a port in UP is not asserted, as LinkLaw has it: with it the clauses on the events
hold, by `portDown_reaches`. -/
theorem not_portDownReachesEveryBlock : ¬ Obligations.PortDownReachesEveryBlock := by
  rintro ⟨every, -⟩
  obtain ⟨up, noElements, other⟩ := waitingOn_starts
  obtain ⟨down, ready⟩ := waitingOn_ends
  obtain ⟨⟨-, -, -, -, -, waits, -⟩, -⟩ := every (.stuckLineAssert 0 [true, true]) waitingOn _ 0 rfl
    (.inr (.inr (.inr (.inl ⟨_, rfl⟩)))) up down
  have held := waits 1 waitingFrame rfl (by decide) other (by decide)
  rw [if_pos noElements, ready] at held
  cases held

end Sys2Proof.Machine
end

section
/-! PROOFS. Device reset of the buffer, the queues, the map and the notices, and what the status lines drive (R44, R142,
R182). -/

namespace Sys2Proof.Machine

/-! ### Status lines -/

theorem State.noticePending_iff (s : State) : s.noticePending = true ↔
    (∃ p : PortId, (s.port p).noticeFlag = true) ∨ ∃ d : Did, (s.did d).moveDone = true := by
  simp [State.noticePending, allPorts, allDids]

theorem State.anyFaulted_iff (s : State) : s.anyFaulted = true ↔ ∃ p : PortId, (s.port p).link = .faulted := by
  simp [State.anyFaulted, allPorts]

/-- A status line is high where the condition of its function holds (R182). -/
theorem State.lineValue_iff (s : State) {drives : LineFunction → Prop} (low : drives .low ↔ False)
    (high : drives .high ↔ True)
    (notice : drives .noticePending ↔ (∃ p : PortId, (s.port p).noticeFlag = true) ∨
      ∃ d : Did, (s.did d).moveDone = true)
    (faulted : drives .anyFaulted ↔ ∃ p : PortId, (s.port p).link = .faulted)
    (hold : drives .mcHold ↔ s.mcHold = true) (f : LineFunction) : s.lineValue f = true ↔ drives f := by
  cases f with
  | low => rw [low]; exact iff_of_false nofun id
  | high => rw [high]; exact iff_of_true rfl trivial
  | noticePending => rw [notice]; exact s.noticePending_iff
  | anyFaulted => rw [faulted]; exact s.anyFaulted_iff
  | mcHold => rw [hold]; rfl

theorem State.reset_statusLines : State.reset.statusLines = (false, false) := by
  have quiet : State.reset.noticePending = false := by
    rw [← Bool.not_eq_true, State.noticePending_iff]
    rintro (⟨p, h⟩ | ⟨d, h⟩)
    · rw [State.reset_port] at h; cases h
    · rw [State.reset_did] at h; cases h
  have sound : State.reset.anyFaulted = false := by
    rw [← Bool.not_eq_true, State.anyFaulted_iff]
    rintro ⟨p, h⟩
    rw [State.reset_port] at h
    cases h
  exact Prod.ext quiet sound

/-! ### The reset -/

/-- The entry of a DID after device reset (R142). -/
theorem DidState.reset_map (d : Did) : (∀ h : d.val < 24, (DidState.reset d).map = .mapped ⟨d.val, h⟩) ∧
    (24 ≤ d.val → (DidState.reset d).map = .unmapped) :=
  ⟨fun h => dif_pos h, fun h => dif_neg (Nat.not_lt.2 h)⟩

/-- Settles O12: the lines by their functions, and each block as `State.reset` says. -/
theorem deviceResetOfTheElement : Obligations.DeviceResetOfTheElement := by
  refine ⟨fun u drives low high notice faulted hold =>
    ⟨u.lineValue_iff low high notice faulted hold _, u.lineValue_iff low high notice faulted hold _⟩,
    fun straps s => ⟨_, rfl, State.reset_pool.1, rfl, rfl, rfl, rfl, rfl, rfl, rfl, rfl, rfl, rfl, rfl, rfl, rfl, rfl,
      rfl, State.reset_statusLines, rfl, rfl, rfl, fun g => ?_, fun d => ?_, fun p => ?_⟩⟩
  · exact Vector.getElem_replicate _
  · have did : State.did { State.reset with plane := straps, pending := s.pending } d = .reset d := State.reset_did d
    rw [did]
    exact ⟨rfl, rfl, rfl, rfl, fun c => ⟨State.reset_usage d c, State.reset_bids d c, PerG.get_const 0 c⟩,
      fun c => State.reset_queue d c, DidState.reset_map d⟩
  · have port : State.port { State.reset with plane := straps, pending := s.pending } p = .reset := State.reset_port p
    rw [port]
    exact ⟨rfl, rfl, rfl, rfl, rfl, rfl, rfl, rfl, rfl, rfl, rfl, rfl, rfl, rfl, rfl, rfl, rfl, rfl,
      fun d c => State.reset_grant p d c, fun d c => State.reset_train p d c, fun c => State.reset_mcTrain p c⟩

end Sys2Proof.Machine
end

section
/-! PROOFS. Admission: the allowance by its formula (R50, R51), and the cells an allowance lets a DID take. -/

namespace Sys2Proof.Machine

/-! ### Usage -/

theorem State.used_eq (s : State) (d : Did) : (s.did d).used =
    (s.usage d .c1).occupied + (s.usage d .c1).reserved + (s.usage d .c2).occupied + (s.usage d .c2).reserved +
      (s.usage d .c3).occupied + (s.usage d .c3).reserved := by
  unfold DidState.used Usage.total State.usage PerG.get
  dsimp only
  omega

/-! ### The allowance -/

/-- The target by the sign of its exponent (R51). -/
theorem targetOf_eq {free target : Nat} {e : Int} (up : 0 ≤ e → target = free * 2 ^ e.toNat)
    (down : e < 0 → target = free / 2 ^ (-e).toNat) : targetOf free e = target := by
  unfold targetOf
  split_ifs with h
  · exact (up h).symm
  · exact (down (by omega)).symm

/-- Settles O28: the values of R50 unfold, and the formula is arithmetic in them. -/
theorem allowanceFollowsItsFormula : Obligations.AllowanceFollowsItsFormula := by
  intro s d c free used floor target e hfree hused hfloor he up down
  have hu : (s.did d).used = used := (s.used_eq d).trans hused.symm
  have target_eq : targetOf free e = target := targetOf_eq up down
  have allowance : s.allowance d c = (floor - min used floor) + min free (target - (used - floor)) := by
    unfold State.allowance allowanceOf DidState.floorUse State.excess DidState.excessOver
    rw [← hfree, ← he, target_eq, hu, ← hfloor]
  have floorUse : (s.did d).floorUse = min used floor := by
    unfold DidState.floorUse
    rw [hu, hfloor]
  have excess : s.excess d = used - floor := by
    unfold State.excess DidState.excessOver
    rw [hu, hfloor]
  refine ⟨?_, ?_, fun h => ?_, floorUse, ?_, ?_, rfl, ?_⟩
  · rw [allowance]; omega
  · rw [allowance]; omega
  · rw [allowance, h]; omega
  · rw [floorUse, excess]; omega
  · rw [excess]; omega
  · rw [hfree]
    unfold State.freeShared State.excessSum
    omega

end Sys2Proof.Machine
end

section
/-! PROOFS. POOL-SET: the values it gives after clamping, its judgement, and what an accepted one leaves (R60 to R62,
R137, R138, R167). -/

namespace Sys2Proof.Machine

/-! ### The values given -/

/-- The two floors of a word (R167). -/
theorem givenFloor_eq (cmd : CmdCell) (d : Did) : givenFloor cmd d =
    if d.val % 2 = 0 then (cmd.param (4 + d.val / 2)).toNat / 2 ^ 16 else (cmd.param (4 + d.val / 2)).toNat % 2 ^ 16 := by
  have small := (cmd.param (4 + d.val / 2)).isLt
  unfold givenFloor
  refine if_congr Iff.rfl ?_ ?_
  · rw [BitVec.extractLsb'_toNat, Nat.shiftRight_eq_div_pow]
    exact Nat.mod_eq_of_lt (by omega)
  · rw [BitVec.extractLsb'_toNat, Nat.shiftRight_zero]

theorem newFloor_eq (cmd : CmdCell) (d : Did) : newFloor cmd d = min 512 (givenFloor cmd d) := by
  unfold newFloor clampNat
  exact Nat.zero_max _

/-- A value is clamped where it is above its bound (R60). -/
theorem lt_iff_min_ne (n m : Nat) : m < n ↔ min n m ≠ n := by omega

/-- What CLAMPED says of a POOL-SET (R60, R138). -/
theorem poolSetClamps_iff (cmd : CmdCell) : poolSetClamps cmd = true ↔
    clampPool (cmd.param 1).toNat ≠ (cmd.param 1).toNat ∨ min (cmd.param 2).toNat 8192 ≠ (cmd.param 2).toNat ∨
      min (cmd.param 3).toNat 8192 ≠ (cmd.param 3).toNat ∨
      min (cmd.param 3).toNat 8192 ≤ min (cmd.param 2).toNat 8192 ∨ ∃ d : Did, newFloor cmd d ≠ givenFloor cmd d := by
  have floors : (∃ d : Did, 512 < givenFloor cmd d) ↔ ∃ d : Did, newFloor cmd d ≠ givenFloor cmd d :=
    exists_congr fun d => by rw [newFloor_eq]; omega
  unfold poolSetClamps
  simp only [Bool.or_eq_true, Bool.not_eq_true', decide_eq_false_iff_not, decide_eq_true_eq, List.any_eq_true, or_assoc]
  rw [← floors, ← lt_iff_min_ne, ← lt_iff_min_ne]
  simp [allDids]

/-! ### The state an accepted POOL-SET leaves -/

theorem State.applyPoolSet_did (s : State) (cmd : CmdCell) (d : Did) :
    (s.applyPoolSet cmd).did d = { s.did d with floor := newFloor cmd d } :=
  (State.did_congr (t := s.applyPoolSet cmd) (s := s.mapDids fun d D => { D with floor := newFloor cmd d })
    (by simp only [State.applyPoolSet, State.judgeHold]) d).trans (State.mapDids_did s _ d)

theorem State.applyPoolSet_sharedPool (s : State) (cmd : CmdCell) :
    (s.applyPoolSet cmd).sharedPool = sharedPoolOf (clampPool (cmd.param 1).toNat) (newFloorSum cmd) := by
  unfold State.sharedPool State.floorSum
  simp only [State.applyPoolSet_did]
  rfl

theorem State.applyPoolSet_excessSum (s : State) (cmd : CmdCell) :
    (s.applyPoolSet cmd).excessSum = newExcessSum cmd s := by
  unfold State.excessSum State.excess
  simp only [State.applyPoolSet_did]
  rfl

theorem State.applyPoolSet_ports (s : State) (cmd : CmdCell) : (s.applyPoolSet cmd).ports = s.ports := by
  simp only [State.applyPoolSet, State.judgeHold, State.mapDids]

/-- The results of an accepted POOL-SET, and how it is judged (R61, R167). -/
theorem doPoolSet_eq (cmd : CmdCell) (s : State) {shared : Int} {excess : Nat}
    (hshared : sharedPoolOf (clampPool (cmd.param 1).toNat) (newFloorSum cmd) = shared)
    (hexcess : newExcessSum cmd s = excess) : doPoolSet cmd s =
      if shared < 1024 then .refuse .badValue s
      else if shared < (excess : Int) then .refuse .inUse s
      else if clampPool (cmd.param 1).toNat < s.poolUse then .refuse .inUse s
      else .accept (poolSetClamps cmd)
        [BitVec.ofInt 32 shared, BitVec.ofNat 32 excess, BitVec.ofNat 32 (shared - excess).toNat] (s.applyPoolSet cmd) := by
  have results : [BitVec.ofInt 32 (s.applyPoolSet cmd).sharedPool, natWord (s.applyPoolSet cmd).excessSum,
      natWord (s.applyPoolSet cmd).freeShared] =
        [BitVec.ofInt 32 shared, BitVec.ofNat 32 excess, BitVec.ofNat 32 (shared - excess).toNat] := by
    unfold State.freeShared
    rw [State.applyPoolSet_sharedPool, State.applyPoolSet_excessSum, hshared, hexcess]
    rfl
  unfold doPoolSet
  dsimp only
  rw [hshared, hexcess, results]
  rfl

/-- Settles O50: the values given are those of the rule, and each clause is one branch of the judgement. -/
theorem poolSetIsJudged : Obligations.PoolSetIsJudged := by
  intro s cmd rest pool on off floor used shared excess h hpool hon hoff hfloor hshared hused hexcess
  have floors (d : Did) : newFloor cmd d = floor d := by rw [newFloor_eq, givenFloor_eq, hfloor]
  have floorSum : newFloorSum cmd = (allDids.map floor).sum :=
    congrArg (fun f : Did → Nat => (allDids.map f).sum) (funext floors)
  have shared_eq : sharedPoolOf (clampPool (cmd.param 1).toNat) (newFloorSum cmd) = shared := by
    rw [floorSum, hshared, hpool]
    rfl
  have excess_eq : newExcessSum cmd (s.taken cmd rest) = excess := by
    rw [hexcess]
    refine congrArg List.sum (List.map_congr_left fun d _ => ?_)
    rw [hused, ← floors, ← s.used_eq]
    rfl
  have judged := doPoolSet_eq cmd (s.taken cmd rest) shared_eq excess_eq
  rw [show clampPool (cmd.param 1).toNat = pool from hpool.symm] at judged
  have refused {st : Status} (hj : doPoolSet cmd (s.taken cmd rest) = .refuse st (s.taken cmd rest)) :
      exec .poolSet s = .next (s.answered cmd rest (responseFrame cmd.frame st [])) :=
    exec_refused (code := .poolSet) h nofun hj
  refine ⟨fun small => refused (judged.trans (if_pos small)), fun large full => refused ?_, fun large fits room => ?_⟩
  · rw [judged, if_neg (not_lt.2 large)]
    by_cases exceeds : shared < (excess : Int)
    · exact if_pos exceeds
    · rw [if_neg exceeds]
      exact if_pos (full.resolve_left exceeds)
  · rw [if_neg (not_lt.2 large), if_neg (not_lt.2 fits),
      if_neg (show ¬ pool < (s.taken cmd rest).poolUse from not_lt.2 room)] at judged
    have did := (s.taken cmd rest).applyPoolSet_did cmd
    have poolSize : ((s.taken cmd rest).applyPoolSet cmd).poolSize = pool := hpool.symm
    have on_eq : clampNat 0 8192 (cmd.param 2).toNat = on := by rw [hon, clampNat]; omega
    have off_eq : clampNat 0 8192 (cmd.param 3).toNat = off := by rw [hoff, clampNat]; omega
    refine ⟨(s.taken cmd rest).applyPoolSet cmd, if poolSetClamps cmd then .clamped else .done,
      congrArg Host.Outcome.next (commandStep_answers (code := .poolSet) h judged), ?_, State.applyPoolSet_ports _ cmd, rfl,
      h.unit, rfl, poolSize, on_eq, off_eq, (State.applyPoolSet_sharedPool _ cmd).trans shared_eq, ?_,
      fun d => (did d).trans (by rw [floors]; rfl), rfl, rfl, fun p d c => ?_, ?_⟩
    · split_ifs
      · exact .inr rfl
      · exact .inl rfl
    · rw [← poolSize, ← on_eq, ← off_eq]
      rfl
    · unfold State.grant
      rw [State.port_congr (State.applyPoolSet_ports _ cmd)]
      obtain ⟨_, _, same⟩ := s.taken_shows cmd rest p
      rw [same]
      rfl
    · have status : (if poolSetClamps cmd then Status.clamped else .done) = .clamped ↔ poolSetClamps cmd = true := by
        split_ifs with hc <;> simp [hc]
      rw [status, poolSetClamps_iff, ← hon, ← hoff, show clampPool (cmd.param 1).toNat = pool from hpool.symm]
      simp only [floors, givenFloor_eq]

end Sys2Proof.Machine
end

section
/-! PROOFS. The books of the element: the tables its laws read, as functions of port and DID, and what each operation on
the state writes in them. -/

namespace Sys2Proof.Machine

/-! ### The books -/

/-- The books of the element: what it keeps for each port, for each DID, and for itself. The element lists are kept by
their lengths, the rows of the grant and train tables by DID and class. -/
@[ext] structure Ledger where
  link : PortId → LinkState
  held : PortId → Nat
  owed : PortId → Nat
  elements : PortId → Nat
  outbox : PortId → List GrantEntry
  refusals : PortId → List RefusalEntry
  grant : PortId → Did × GClass → Option GrantRec
  train : PortId → Did × Cls → TrainState
  snapshot : PortId → GClass → DidSet
  round : PortId → Round
  cadence : PortId → List Bool
  stuck : PortId → StuckMonitor
  test : PortId → PatternUnit
  portOf : Did → Option PortId
  floor : Did → Nat
  usage : Did → GClass → Usage
  bids : Did → GClass → List BidEntry
  queue : Did → Cls → List QEntry
  refs : Did → GClass → Nat
  classes : PerG ClassSettings
  markerUse : Nat
  owedMarkers : List MarkerKey
  poolSize : Nat
  poolUse : Nat
  mcCells : List McCell
  mcNext : Nat
  holdOn : Nat
  holdOff : Nat
  mcHold : Bool
  elementUse : Nat
  cmdQueue : List CmdCell

def Port.grantRow (P : Port) (k : Did × GClass) : Option GrantRec := P.grant k.1 k.2
def Port.trainRow (P : Port) (k : Did × Cls) : TrainState := P.train k.1 k.2
def Port.snapshotRow (P : Port) (c : GClass) : DidSet := (P.mcTrains.get c).snapshot

/-- The books of a state. -/
def State.ledger (s : State) : Ledger where
  link p := (s.port p).link
  held p := (s.port p).held
  owed p := (s.port p).owed
  elements p := (s.port p).elements.length
  outbox p := (s.port p).grantOutbox
  refusals p := (s.port p).refusalOutbox
  grant p := (s.port p).grantRow
  train p := (s.port p).trainRow
  snapshot p := (s.port p).snapshotRow
  round p := (s.port p).round
  cadence p := (s.port p).settings.cadence
  stuck p := (s.port p).stuck
  test p := (s.port p).test
  portOf := s.portOf
  floor d := (s.did d).floor
  usage := s.usage
  bids := s.bids
  queue := s.queue
  refs d := (s.did d).mcRefs.get
  classes := s.classes
  markerUse := s.markerUse
  owedMarkers := s.owedMarkers
  poolSize := s.poolSize
  poolUse := s.poolUse
  mcCells := s.mcCells
  mcNext := s.mcNext
  holdOn := s.holdOn
  holdOff := s.holdOff
  mcHold := s.mcHold
  elementUse := s.elementUse
  cmdQueue := s.cmdQueue

/-- A table of two keys with one entry replaced. -/
def put {α β γ : Type} [DecidableEq α] [DecidableEq β] (f : α → β → γ) (a : α) (b : β) (x : γ) : α → β → γ :=
  Function.update f a (Function.update (f a) b x)

theorem put_apply {α β γ : Type} [DecidableEq α] [DecidableEq β] (f : α → β → γ) (a a' : α) (b b' : β) (x : γ) :
    put f a b x a' b' = if a' = a ∧ b' = b then x else f a' b' := by
  unfold put
  by_cases ha : a' = a
  · subst ha
    by_cases hb : b' = b <;> simp [hb]
  · simp [ha]

@[simp] theorem put_self {α β γ : Type} [DecidableEq α] [DecidableEq β] (f : α → β → γ) (a : α) (b : β) (x : γ) :
    put f a b x a b = x := by
  rw [put_apply, if_pos ⟨rfl, rfl⟩]

theorem put_ne {α β γ : Type} [DecidableEq α] [DecidableEq β] (f : α → β → γ) {a a' : α} {b b' : β} (x : γ)
    (h : ¬ (a' = a ∧ b' = b)) : put f a b x a' b' = f a' b' := by
  rw [put_apply, if_neg h]

/-! ### Writing a port -/

/-- The books after port `p` was written. -/
def Ledger.setPort (b : Ledger) (p : PortId) (P : Port) : Ledger :=
  { b with
    link := Function.update b.link p P.link, held := Function.update b.held p P.held,
    owed := Function.update b.owed p P.owed, elements := Function.update b.elements p P.elements.length,
    outbox := Function.update b.outbox p P.grantOutbox, refusals := Function.update b.refusals p P.refusalOutbox,
    grant := Function.update b.grant p P.grantRow, train := Function.update b.train p P.trainRow,
    snapshot := Function.update b.snapshot p P.snapshotRow, round := Function.update b.round p P.round,
    cadence := Function.update b.cadence p P.settings.cadence, stuck := Function.update b.stuck p P.stuck,
    test := Function.update b.test p P.test }

theorem State.updPort_table {α : Type} (g : Port → α) (s : State) (p : PortId) (f : Port → Port) :
    (fun q => g ((s.updPort p f).port q)) = Function.update (fun q => g (s.port q)) p (g (f (s.port p))) := by
  funext q
  rw [State.updPort_port, Function.update_apply]
  split_ifs with h
  · rw [h]
  · rfl

theorem State.updPort_ledger (s : State) (p : PortId) (f : Port → Port) :
    (s.updPort p f).ledger = s.ledger.setPort p (f (s.port p)) := by
  ext : 1
  case link => exact s.updPort_table Port.link p f
  case held => exact s.updPort_table Port.held p f
  case owed => exact s.updPort_table Port.owed p f
  case elements => exact s.updPort_table (fun P => P.elements.length) p f
  case outbox => exact s.updPort_table Port.grantOutbox p f
  case refusals => exact s.updPort_table Port.refusalOutbox p f
  case grant => exact s.updPort_table Port.grantRow p f
  case train => exact s.updPort_table Port.trainRow p f
  case snapshot => exact s.updPort_table Port.snapshotRow p f
  case round => exact s.updPort_table Port.round p f
  case cadence => exact s.updPort_table (fun P => P.settings.cadence) p f
  case stuck => exact s.updPort_table Port.stuck p f
  case test => exact s.updPort_table Port.test p f
  all_goals rfl

/-- A port with the fields that stand in no book at their reset values. -/
def Port.booked (P : Port) : Port :=
  { Port.reset with
    link := P.link, held := P.held, owed := P.owed, elements := P.elements, grantOutbox := P.grantOutbox,
    refusalOutbox := P.refusalOutbox, grants := P.grants, trains := P.trains, mcTrains := P.mcTrains, round := P.round,
    settings := { Settings.reset with cadence := P.settings.cadence }, stuck := P.stuck, test := P.test }

/-- A destination with the fields that stand in no book at their reset values. -/
def DidState.booked (D : DidState) : DidState := { D with counters := .zero, lastMove := .none, moveDone := false }

/-- What the element keeps in its books beside the tables of ports and destinations. -/
def State.bookedRest (s : State) : State :=
  { State.reset with
    classes := s.classes, markerUse := s.markerUse, owedMarkers := s.owedMarkers, poolSize := s.poolSize,
    poolUse := s.poolUse, mcCells := s.mcCells, mcNext := s.mcNext, holdOn := s.holdOn, holdOff := s.holdOff,
    mcHold := s.mcHold, elementUse := s.elementUse, cmdQueue := s.cmdQueue }

/-- All but trains, snapshots and what stands in no book. -/
def View.untrained : View where
  port P := { P.booked with trains := Vector.replicate 32 (.const .idle), mcTrains := .const .idle }
  did := DidState.booked
  rest := State.bookedRest

/-- A state that differs in trains and snapshots alone has the same books but for these. -/
theorem State.Keeps.ledger {s t : State} (h : s.Keeps .untrained t) :
    t.ledger = { s.ledger with train := t.ledger.train, snapshot := t.ledger.snapshot } := by
  ext : 1
  case link => exact funext (h.portField Port.link fun _ => rfl)
  case held => exact funext (h.portField Port.held fun _ => rfl)
  case owed => exact funext (h.portField Port.owed fun _ => rfl)
  case elements => exact funext (h.portField (fun P => P.elements.length) fun _ => rfl)
  case outbox => exact funext (h.portField Port.grantOutbox fun _ => rfl)
  case refusals => exact funext (h.portField Port.refusalOutbox fun _ => rfl)
  case grant => exact funext (h.portField Port.grantRow fun _ => rfl)
  case round => exact funext (h.portField Port.round fun _ => rfl)
  case cadence => exact funext (h.portField (fun P => P.settings.cadence) fun _ => rfl)
  case stuck => exact funext (h.portField Port.stuck fun _ => rfl)
  case test => exact funext (h.portField Port.test fun _ => rfl)
  case portOf => exact funext (h.didField (fun D => D.map.port?) fun _ => rfl)
  case floor => exact funext (h.didField DidState.floor fun _ => rfl)
  case usage => exact funext (h.didField (fun D => D.usage.get) fun _ => rfl)
  case bids => exact funext (h.didField (fun D => D.bids.get) fun _ => rfl)
  case queue => exact funext (h.didField (fun D => D.queues.get) fun _ => rfl)
  case refs => exact funext (h.didField (fun D => D.mcRefs.get) fun _ => rfl)
  case classes => exact h.restField State.classes fun _ => rfl
  case markerUse => exact h.restField State.markerUse fun _ => rfl
  case owedMarkers => exact h.restField State.owedMarkers fun _ => rfl
  case poolSize => exact h.restField State.poolSize fun _ => rfl
  case poolUse => exact h.restField State.poolUse fun _ => rfl
  case mcCells => exact h.restField State.mcCells fun _ => rfl
  case mcNext => exact h.restField State.mcNext fun _ => rfl
  case holdOn => exact h.restField State.holdOn fun _ => rfl
  case holdOff => exact h.restField State.holdOff fun _ => rfl
  case mcHold => exact h.restField State.mcHold fun _ => rfl
  case elementUse => exact h.restField State.elementUse fun _ => rfl
  case cmdQueue => exact h.restField State.cmdQueue fun _ => rfl
  all_goals rfl

/-- States that differ in what stands in no book have the same books. -/
theorem State.ledger_congr {s t : State} (port : ∀ p, (t.port p).booked = (s.port p).booked)
    (did : ∀ d, (t.did d).booked = (s.did d).booked) (rest : t.bookedRest = s.bookedRest) : t.ledger = s.ledger := by
  have kept : s.Keeps .untrained t := ⟨fun p => congrArg
    (fun P : Port => { P with trains := Vector.replicate 32 (.const .idle), mcTrains := .const .idle }) (port p), did, rest⟩
  have field {α : Type} (g : Port → α) (hg : ∀ P, g P.booked = g P) : (fun p => g (t.port p)) = fun p => g (s.port p) :=
    funext fun p => by rw [← hg, port, hg]
  have train : t.ledger.train = s.ledger.train := field Port.trainRow fun _ => rfl
  have snapshot : t.ledger.snapshot = s.ledger.snapshot := field Port.snapshotRow fun _ => rfl
  rw [kept.ledger, train, snapshot]

theorem State.updPort_unbooked (s : State) (p : PortId) {f : Port → Port}
    (h : (f (s.port p)).booked = (s.port p).booked) : (s.updPort p f).ledger = s.ledger := by
  refine State.ledger_congr (fun q => ?_) (fun d => by rw [State.updPort_did]) rfl
  rw [State.updPort_port]
  split_ifs with hq
  · rw [hq, h]
  · rfl

theorem State.mapPorts_unbooked (s : State) {f : PortId → Port → Port}
    (h : ∀ p, (f p (s.port p)).booked = (s.port p).booked) : (s.mapPorts f).ledger = s.ledger :=
  State.ledger_congr (fun p => by rw [State.mapPorts_port, h]) (fun d => by rw [State.mapPorts_did])
    (by simp only [State.bookedRest, State.mapPorts])

theorem State.updDid_unbooked (s : State) (d : Did) {f : DidState → DidState}
    (h : (f (s.did d)).booked = (s.did d).booked) : (s.updDid d f).ledger = s.ledger := by
  refine State.ledger_congr (fun p => by rw [State.updDid_port]) (fun e => ?_) rfl
  rw [State.updDid_did]
  split_ifs with he
  · rw [he, h]
  · rfl

theorem State.mapDids_unbooked (s : State) {f : Did → DidState → DidState}
    (h : ∀ d, (f d (s.did d)).booked = (s.did d).booked) : (s.mapDids f).ledger = s.ledger :=
  State.ledger_congr (fun p => by rw [State.mapDids_port]) (fun d => by rw [State.mapDids_did, h])
    (by simp only [State.bookedRest, State.mapDids])

/-! ### Writing a DID -/

/-- The books after DID `d` was written. -/
def Ledger.setDid (b : Ledger) (d : Did) (D : DidState) : Ledger :=
  { b with
    portOf := Function.update b.portOf d D.map.port?, floor := Function.update b.floor d D.floor,
    usage := Function.update b.usage d D.usage.get, bids := Function.update b.bids d D.bids.get,
    queue := Function.update b.queue d D.queues.get, refs := Function.update b.refs d D.mcRefs.get }

theorem State.updDid_table {α : Type} (g : DidState → α) (s : State) (d : Did) (f : DidState → DidState) :
    (fun e => g ((s.updDid d f).did e)) = Function.update (fun e => g (s.did e)) d (g (f (s.did d))) := by
  funext e
  rw [State.updDid_did, Function.update_apply]
  split_ifs with h
  · rw [h]
  · rfl

theorem State.updDid_ledger (s : State) (d : Did) (f : DidState → DidState) :
    (s.updDid d f).ledger = s.ledger.setDid d (f (s.did d)) := by
  ext : 1
  case portOf => exact s.updDid_table (fun D => D.map.port?) d f
  case floor => exact s.updDid_table DidState.floor d f
  case usage => exact s.updDid_table (fun D => D.usage.get) d f
  case bids => exact s.updDid_table (fun D => D.bids.get) d f
  case queue => exact s.updDid_table (fun D => D.queues.get) d f
  case refs => exact s.updDid_table (fun D => D.mcRefs.get) d f
  all_goals rfl

theorem PerG.get_set {α : Type} (t : PerG α) (c : GClass) (x : α) : (t.set c x).get = Function.update t.get c x := by
  funext c'
  by_cases h : c' = c
  · rw [h, PerG.get_set_self, Function.update_self]
  · rw [PerG.get_set_ne t x h, Function.update_of_ne h]

theorem PerClass.get_set {α : Type} (t : PerClass α) (c : Cls) (x : α) :
    (t.set c x).get = Function.update t.get c x := by
  funext c'
  by_cases h : c' = c
  · rw [h, PerClass.get_set_self, Function.update_self]
  · rw [PerClass.get_set_ne t x h, Function.update_of_ne h]

/-! ### One table of the DIDs -/

theorem State.setUsage_ledger (s : State) (d : Did) (c : GClass) (u : Usage) :
    (s.setUsage d c u).ledger = { s.ledger with usage := put s.ledger.usage d c u } := by
  rw [State.setUsage, State.updDid_ledger]
  ext : 1 <;> first | rfl | exact Function.update_eq_self _ _ | exact congrArg (Function.update _ d) (PerG.get_set _ _ _)

theorem State.updUsage_ledger (s : State) (d : Did) (c : GClass) (f : Usage → Usage) :
    (s.updUsage d c f).ledger = { s.ledger with usage := put s.ledger.usage d c (f (s.ledger.usage d c)) } :=
  s.setUsage_ledger d c _

theorem State.setBids_ledger (s : State) (d : Did) (c : GClass) (q : List BidEntry) :
    (s.setBids d c q).ledger = { s.ledger with bids := put s.ledger.bids d c q } := by
  rw [State.setBids, State.updDid_ledger]
  ext : 1 <;> first | rfl | exact Function.update_eq_self _ _ | exact congrArg (Function.update _ d) (PerG.get_set _ _ _)

theorem State.setQueue_ledger (s : State) (d : Did) (c : Cls) (q : List QEntry) :
    (s.setQueue d c q).ledger = { s.ledger with queue := put s.ledger.queue d c q } := by
  rw [State.setQueue, State.updDid_ledger]
  ext : 1 <;> first | rfl | exact Function.update_eq_self _ _ | exact congrArg (Function.update _ d) (PerClass.get_set _ _ _)

theorem State.enqueue_ledger (s : State) (d : Did) (c : Cls) (e : QEntry) :
    (s.enqueue d c e).ledger = { s.ledger with queue := put s.ledger.queue d c (s.ledger.queue d c ++ [e]) } :=
  s.setQueue_ledger d c _

theorem State.updRefs_ledger (s : State) (d : Did) (c : GClass) (f : Nat → Nat) :
    (s.updRefs d c f).ledger = { s.ledger with refs := put s.ledger.refs d c (f (s.ledger.refs d c)) } := by
  rw [State.updRefs, State.updDid_ledger]
  ext : 1 <;> first | rfl | exact Function.update_eq_self _ _ | exact congrArg (Function.update _ d) (PerG.get_set _ _ _)

theorem State.setMap_ledger (s : State) (d : Did) (m : DidMap) :
    (s.setMap d m).ledger = { s.ledger with portOf := Function.update s.ledger.portOf d m.port? } := by
  rw [State.setMap, State.updDid_ledger]
  ext : 1 <;> first | rfl | exact Function.update_eq_self _ _

theorem State.countDid_ledger (s : State) (d : Did) (f : DidCounters → DidCounters) : (s.countDid d f).ledger = s.ledger :=
  s.updDid_unbooked d rfl

/-! ### One table of the ports -/

theorem Port.setGrant_row (P : Port) (d : Did) (c : GClass) (g : Option GrantRec) :
    (P.setGrant d c g).grantRow = Function.update P.grantRow (d, c) g := by
  funext k
  obtain ⟨e, x⟩ := k
  refine (P.setGrant_grant d e c x g).trans ?_
  rw [Function.update_apply]
  exact if_congr (by rw [Prod.mk.injEq, eq_comm (a := d), eq_comm (a := c)]) rfl rfl

theorem State.setGrant_ledger (s : State) (p : PortId) (d : Did) (c : GClass) (g : Option GrantRec) :
    (s.setGrant p d c g).ledger = { s.ledger with grant := put s.ledger.grant p (d, c) g } := by
  rw [State.setGrant, State.updPort_ledger]
  ext : 1 <;> first | rfl | exact Function.update_eq_self _ _ | exact congrArg (Function.update _ p) (Port.setGrant_row _ _ _ _)

theorem State.updOutbox_ledger (s : State) (p : PortId) (f : List GrantEntry → List GrantEntry) :
    (s.updOutbox p f).ledger = { s.ledger with outbox := Function.update s.ledger.outbox p (f (s.ledger.outbox p)) } := by
  rw [State.updOutbox, State.updPort_ledger]
  ext : 1 <;> first | rfl | exact Function.update_eq_self _ _

theorem State.countPort_ledger (s : State) (p : PortId) (f : PortCounters → PortCounters) :
    (s.countPort p f).ledger = s.ledger :=
  s.updPort_unbooked p rfl

theorem State.holdCredit_ledger (s : State) (p : PortId) :
    (s.holdCredit p).ledger = { s.ledger with held := Function.update s.ledger.held p (s.ledger.held p + 1) } := by
  rw [State.holdCredit, State.updPort_ledger]
  ext : 1 <;> first | rfl | exact Function.update_eq_self _ _

theorem State.setOwed_ledger (s : State) (p : PortId) (n : Port → Nat) :
    (s.updPort p fun P => { P with owed := n P }).ledger =
      { s.ledger with owed := Function.update s.ledger.owed p (n (s.port p)) } := by
  rw [State.updPort_ledger]
  ext : 1 <;> first | rfl | exact Function.update_eq_self _ _

theorem State.setRefusals_ledger (s : State) (p : PortId) (l : Port → List RefusalEntry) :
    (s.updPort p fun P => { P with refusalOutbox := l P }).ledger =
      { s.ledger with refusals := Function.update s.ledger.refusals p (l (s.port p)) } := by
  rw [State.updPort_ledger]
  ext : 1 <;> first | rfl | exact Function.update_eq_self _ _

theorem State.setElements_ledger (s : State) (p : PortId) (l : Port → List Frame) :
    (s.updPort p fun P => { P with elements := l P }).ledger =
      { s.ledger with elements := Function.update s.ledger.elements p (l (s.port p)).length } := by
  rw [State.updPort_ledger]
  ext : 1 <;> first | rfl | exact Function.update_eq_self _ _

theorem State.setRound_ledger (s : State) (p : PortId) (r : Port → Round) :
    (s.updPort p fun P => { P with round := r P }).ledger =
      { s.ledger with round := Function.update s.ledger.round p (r (s.port p)) } := by
  rw [State.updPort_ledger]
  ext : 1 <;> first | rfl | exact Function.update_eq_self _ _

/-- A released credit moves from h to o while the port is UP (R155). -/
def Ledger.release (b : Ledger) (p : PortId) : Ledger :=
  { b with held := Function.update b.held p (b.held p - 1),
           owed := Function.update b.owed p (if b.held p ≠ 0 ∧ b.link p = .up then b.owed p + 1 else b.owed p) }

theorem Port.released_eq (P : Port) : P.released =
    { P with held := P.held - 1, owed := if P.held ≠ 0 ∧ P.link = .up then P.owed + 1 else P.owed } := by
  unfold Port.released
  by_cases h : P.held = 0
  · rw [if_pos h, if_neg (fun x => x.1 h), h, Nat.zero_sub, ← h]
  · rw [if_neg h, if_congr (and_iff_right h) rfl rfl]

theorem State.releaseCredit_ledger (s : State) (p : PortId) : (s.releaseCredit p).ledger = s.ledger.release p := by
  rw [State.releaseCredit_eq, State.updPort_ledger, Port.released_eq]
  ext : 1 <;> first | rfl | exact Function.update_eq_self _ _

/-! ### Reachable destinations -/

/-- DID `d` maps to a port that is UP (R143). -/
def Ledger.Reachable (b : Ledger) (d : Did) : Prop := ∃ p, b.portOf d = some p ∧ b.link p = .up

theorem State.reachable_ledger (s : State) (d : Did) : s.reachable d = true ↔ s.ledger.Reachable d := by
  unfold State.reachable
  change _ ↔ ∃ p, s.portOf d = some p ∧ (s.port p).link = .up
  cases s.portOf d with
  | none => simp
  | some p => simp [State.isUp]

end Sys2Proof.Machine
end

section
/-! PROOFS. Grants: the issue by the arbiter and the expiry of a record, read off the books (R73 to R77, R83). -/

namespace Sys2Proof.Machine

/-! ### The issue of a grant -/

theorem GrantEntry.isFor_iff (x : GrantEntry) (d : Did) (c : GClass) : x.isFor d c = true ↔ x.did = d ∧ x.cls = c :=
  decide_eq_true_iff

theorem State.outboxTakes_iff (s : State) (p : PortId) (d : Did) (c : GClass) : s.outboxTakes p d c = true ↔
    (s.port p).grantOutbox.length < 8 ∨ ∃ x ∈ (s.port p).grantOutbox, x.isFor d c = true := by
  unfold State.outboxTakes
  rw [Bool.or_eq_true, decide_eq_true_iff, List.any_eq_true]
  rfl

theorem State.qualifies_iff (s : State) (d : Did) (c : GClass) (e : BidEntry) : s.qualifies d c e = true ↔
    1 ≤ s.need d c e ∧ ((s.port e.src).grantOutbox.length < 8 ∨
      ∃ x ∈ (s.port e.src).grantOutbox, x.did = d ∧ x.cls = c) := by
  unfold State.qualifies
  rw [Bool.and_eq_true, decide_eq_true_iff, State.outboxTakes_iff]
  simp only [GrantEntry.isFor_iff]

theorem State.issuable_iff (s : State) (d : Did) : s.issuable d = true ↔
    ∃ p, (s.did d).map = .mapped p ∧ s.isUp p = true := by
  unfold State.issuable
  cases (s.did d).map <;> simp

theorem State.issueGrant_ledger (s : State) (d : Did) (c : GClass) (e : BidEntry) (q : Nat) :
    (s.issueGrant d c e q).ledger = { s.ledger with
      usage := put s.ledger.usage d c (Usage.reserve q (s.ledger.usage d c)),
      grant := put s.ledger.grant e.src (d, c) (some ⟨remainingOf (s.ledger.grant e.src (d, c)) + q, none⟩),
      outbox := Function.update s.ledger.outbox e.src (outboxPlace d c q (s.ledger.outbox e.src)),
      bids := put s.ledger.bids d c (bidsWithout e.src (s.ledger.bids d c) ++ [e]) } := by
  unfold State.issueGrant
  rw [State.setBids_ledger, State.updOutbox_ledger, State.setGrant_ledger, State.updUsage_ledger]
  rfl

theorem State.issueGrant_port_ne (s : State) (d : Did) (c : GClass) (e : BidEntry) (q : Nat) {r : PortId} (h : r ≠ e.src) :
    (s.issueGrant d c e q).port r = s.port r := by
  unfold State.issueGrant State.setBids State.updOutbox State.setGrant
  rw [State.updDid_port, State.updPort_port_ne _ _ h, State.updPort_port_ne _ _ h, State.updUsage_port]

theorem State.issueGrant_did_ne (s : State) (d : Did) (c : GClass) (e : BidEntry) (q : Nat) {d' : Did} (h : d' ≠ d) :
    (s.issueGrant d c e q).did d' = s.did d' := by
  unfold State.issueGrant State.setBids State.updOutbox State.setGrant State.updUsage State.setUsage
  rw [State.updDid_did_ne _ _ h, State.updPort_did, State.updPort_did, State.updDid_did_ne _ _ h]

theorem outboxPlace_eq (d : Did) (c : GClass) (q : Nat) (box : List GrantEntry) : outboxPlace d c q box =
    if box.any fun x => decide (x.did = d ∧ x.cls = c) then
      box.map fun x => if x.did = d ∧ x.cls = c then { x with quota := x.quota + q } else x
    else box ++ [{ cls := c, did := d, quota := q }] := by
  unfold outboxPlace
  simp only [GrantEntry.isFor_iff]
  rfl

/-- A source has one entry: without it stand the entries before and behind (R65). -/
theorem bidsWithout_middle {ahead behind : List BidEntry} {e : BidEntry}
    (h : ((ahead ++ e :: behind).map fun x => x.src).Nodup) : bidsWithout e.src (ahead ++ e :: behind) = ahead ++ behind := by
  have others : ∀ x ∈ ahead ++ behind, x.src ≠ e.src := by
    rw [List.map_append, List.map_cons, List.nodup_middle, ← List.map_append] at h
    intro x hx same
    exact (List.nodup_cons.1 h).1 (List.mem_map.2 ⟨x, hx, same⟩)
  unfold bidsWithout
  rw [List.filter_append, List.filter_cons_of_neg (by simp), ← List.filter_append]
  exact List.filter_eq_self.2 fun x hx => by simp [others x hx]

theorem State.candidate_eq_none {s : State} {d : Did} {c : GClass}
    (h : s.issuable d = false ∨ s.allowance d c = 0 ∨ ∀ e ∈ s.bids d c, s.qualifies d c e ≠ true) :
    s.candidate d c = none := by
  unfold State.candidate
  split_ifs with open_
  · obtain ⟨issuable, room⟩ := Bool.and_eq_true_iff.1 open_
    obtain shut | full | unfit := h
    · rw [shut] at issuable
      cases issuable
    · rw [full] at room
      cases room
    · exact List.find?_eq_none.2 unfit
  · rfl

/-- The first entry that qualifies is the candidate (R74). -/
theorem State.candidate_eq_some {s : State} {d : Did} {c : GClass} {ahead behind : List BidEntry} {e : BidEntry}
    (issuable : s.issuable d = true) (room : 1 ≤ s.allowance d c) (bids : s.bids d c = ahead ++ e :: behind)
    (unfit : ∀ x ∈ ahead, s.qualifies d c x ≠ true) (fit : s.qualifies d c e = true) :
    s.candidate d c = some e := by
  unfold State.candidate
  rw [if_pos (by rw [issuable, decide_eq_true room]; rfl), bids, List.find?_append,
    List.find?_eq_none.2 unfit, List.find?_cons_of_pos fit]
  rfl

/-- Settles O38: the candidate decides between no change and one grant, whose writes stand in the books. -/
theorem grantsAreIssued : Obligations.GrantsAreIssued := by
  intro s d c left qualifies hleft hqual
  have remaining (p : PortId) : remainingOf (s.grant p d c) = left p := by
    rw [hleft]
    cases s.grant p d c <;> rfl
  have fits (e : BidEntry) : s.qualifies d c e = true ↔ qualifies e := by
    rw [hqual, State.qualifies_iff, State.need, remaining]
  refine ⟨fun closed => ?_, fun p ahead behind e q map up room grants bids once unfit fit quota => ?_⟩
  · have shut : s.candidate d c = none := by
      refine State.candidate_eq_none ?_
      obtain unmapped | ⟨p, map, down⟩ | full | none := closed
      · exact .inl (Bool.eq_false_iff.2 fun h => by obtain ⟨p, hp, -⟩ := (s.issuable_iff d).1 h; exact unmapped p hp)
      · refine .inl (Bool.eq_false_iff.2 fun h => ?_)
        obtain ⟨q, hq, up⟩ := (s.issuable_iff d).1 h
        cases map.symm.trans hq
        rw [down] at up
        cases up
      · exact .inr (.inl full)
      · exact .inr (.inr fun e he h => none e he ((fits e).1 h))
    obtain ⟨-, same⟩ | ⟨e, found, -⟩ := s.arbitrate_cases d c
    · exact congrArg Host.Outcome.next same
    · cases shut.symm.trans found
  · have candidate : s.candidate d c = some e := State.candidate_eq_some ((s.issuable_iff d).2 ⟨p, map, up⟩) room bids
      (fun x hx h => unfit x hx ((fits x).1 h)) ((fits e).2 fit)
    have quota_eq : s.quota d c e = q := by
      rw [quota, State.quota, State.need, remaining]
    have issued : exec (.grantIssue d c) s = .next (s.issueGrant d c e q) := by
      refine congrArg Host.Outcome.next ?_
      rw [State.arbitrate, candidate, ← quota_eq]
    have books := s.issueGrant_ledger d c e q
    have bids_t : (s.issueGrant d c e q).bids d c = ahead ++ behind ++ [e] := by
      refine (congrArg (fun b : Ledger => b.bids d c) books).trans ((put_self _ _ _ _).trans ?_)
      rw [show s.ledger.bids d c = _ from bids, bidsWithout_middle (bids ▸ once)]
    have usage_t : (s.issueGrant d c e q).usage d c =
        { occupied := (s.usage d c).occupied, reserved := (s.usage d c).reserved + q } :=
      (congrArg (fun b : Ledger => b.usage d c) books).trans (put_self _ _ _ _)
    have grant_t (r : PortId) (d' : Did) (c' : GClass) : (s.issueGrant d c e q).grant r d' c' =
        if r = e.src ∧ (d', c') = (d, c) then some ⟨left e.src + q, none⟩ else s.grant r d' c' := by
      refine (congrArg (fun b : Ledger => b.grant r (d', c')) books).trans ((put_apply _ _ _ _ _ _).trans ?_)
      rw [← remaining]
      rfl
    have outbox_t : ((s.issueGrant d c e q).port e.src).grantOutbox = outboxPlace d c q (s.port e.src).grantOutbox :=
      (congrArg (fun b : Ledger => b.outbox e.src) books).trans (Function.update_self _ _ _)
    refine ⟨?_, s.issueGrant d c e q, issued, bids_t, usage_t, ?_, ?_, fun r d' c' h => ?_,
      fun r => s.issueGrant_port_ne d c e q, fun d' => s.issueGrant_did_ne d c e q, rfl, rfl, rfl⟩
    · have need := ((hqual e).1 fit).1
      omega
    · rw [grant_t, if_pos ⟨rfl, rfl⟩]
    · rw [outbox_t, outboxPlace_eq]
    · refine (grant_t r d' c').trans (if_neg fun same => h ?_)
      rw [same.1, same.2]

/-! ### The expiry of a record -/

theorem State.closeGrant_ledger {s : State} {p : PortId} {d : Did} {c : GClass} {g : GrantRec} (h : s.grant p d c = some g) :
    (s.closeGrant p d c).ledger = { s.ledger with
      usage := put s.ledger.usage d c (Usage.unreserve g.remaining (s.ledger.usage d c)),
      grant := put s.ledger.grant p (d, c) none,
      outbox := Function.update s.ledger.outbox p (outboxWithout d c (s.ledger.outbox p)) } := by
  obtain ⟨record, -⟩ | ⟨g', record, e⟩ := s.closeGrant_cases p d c
  · cases record.symm.trans h
  · cases record.symm.trans h
    rw [e, State.updOutbox_ledger, State.setGrant_ledger, State.updUsage_ledger]

theorem State.closeGrant_port (s : State) (p : PortId) (d : Did) (c : GClass) (r : PortId) :
    ((s.closeGrant p d c).port r).counters = (s.port r).counters ∧ (r ≠ p → (s.closeGrant p d c).port r = s.port r) ∧
      ((s.closeGrant p d c).port r).refusalOutbox = (s.port r).refusalOutbox := by
  obtain ⟨-, e⟩ | ⟨g, -, e⟩ := s.closeGrant_cases p d c <;> rw [e]
  · exact ⟨rfl, fun _ => rfl, rfl⟩
  · unfold State.updOutbox State.setGrant
    rw [State.updPort_updPort, State.updPort_port, State.updUsage_port]
    split_ifs with h
    · exact ⟨rfl, fun n => absurd h n, rfl⟩
    · exact ⟨rfl, fun _ => rfl, rfl⟩

theorem State.closeGrant_did_ne (s : State) (p : PortId) (d : Did) (c : GClass) {d' : Did} (h : d' ≠ d) :
    (s.closeGrant p d c).did d' = s.did d' := by
  obtain ⟨-, e⟩ | ⟨g, -, e⟩ := s.closeGrant_cases p d c <;> rw [e]
  unfold State.updOutbox State.setGrant State.updUsage State.setUsage
  rw [State.updPort_did, State.updPort_did, State.updDid_did_ne _ _ h]

/-- Settles O39: the expiry closes the record and counts, and the books say what closing a record writes. -/
theorem grantsExpire : Obligations.GrantsExpire := by
  intro s p d c
  have quiet (same : s.expire p d c = s) : exec (.grantExpiry p d c) s = .next s := by
    refine congrArg Host.Outcome.next ?_
    rw [same, eventEnd_self]
  refine ⟨fun n time record => ?_, fun n record => quiet ?_, fun record => quiet ?_⟩
  · have expired : s.expire p d c = ({ s with now := max s.now time }.closeGrant p d c).countPort p .incGrantExpired := by
      unfold State.expire
      rw [record]
    generalize hu : ({ s with now := max s.now time } : State) = u at expired
    have record' : u.grant p d c = some ⟨n, some time⟩ := by rw [← hu]; exact record
    have books := (congrArg State.ledger expired).trans
      ((State.countPort_ledger _ p _).trans (State.closeGrant_ledger record'))
    have before : u.ledger = s.ledger := by rw [← hu]; rfl
    have port (r : PortId) : u.port r = s.port r := by rw [← hu]; rfl
    rw [before] at books
    refine ⟨_, rfl, ?_, ?_, ?_, fun d' c' => ⟨?_, ?_⟩, fun r h => ?_, fun d' h => ?_, ?_, ?_⟩
    · exact (congrArg (fun b : Ledger => b.grant p (d, c)) books).trans (put_self _ _ _ _)
    · exact (congrArg (fun b : Ledger => b.usage d c) books).trans (put_self _ _ _ _)
    · rw [expired, State.countPort_port, if_pos rfl, (u.closeGrant_port p d c p).1, port]
      rfl
    · exact congrArg (fun b : Ledger => b.bids d' c') books
    · exact congrArg (fun b : Ledger => b.queue d' c'.cls) books
    · rw [expired, State.countPort_port, if_neg h, (u.closeGrant_port p d c r).2.1 h, port]
    · rw [expired, State.countPort, State.updPort_did, u.closeGrant_did_ne p d c h, ← hu]
      rfl
    · rw [expired, State.countPort_port, if_pos rfl, (u.closeGrant_port p d c p).2.2, port]
    · rw [expired]
      obtain ⟨-, e⟩ | ⟨g, -, e⟩ := u.closeGrant_cases p d c <;> rw [e, ← hu] <;> rfl
  · unfold State.expire
    rw [record]
  · unfold State.expire
    rw [record]

end Sys2Proof.Machine
end

section
/-! PROOFS. The entries of the books: every way in which one operation of the element changes them, each with what it
finds beforehand. The laws of the element are invariants of these entries. -/

namespace Sys2Proof.Machine

open Function (update)

/-! ### What an entry finds -/

/-- DID `d` is UNMAPPED or destination-down and holds nothing (R105, R111, R140, R143). -/
structure Ledger.Bare (b : Ledger) (d : Did) : Prop where
  queue : ∀ c, b.queue d c = []
  bids : ∀ c, b.bids d c = []
  owed : ∀ k ∈ b.owedMarkers, k.did ≠ d
  grant : ∀ p c, b.grant p (d, c) = none
  train : ∀ p c, b.train p (d, c) = .idle
  snapshot : ∀ p c, DidSet.has (b.snapshot p c) d = false

/-- DID `d` is reachable, or some train runs to it: a marker of it may be made. -/
def Ledger.Live (b : Ledger) (d : Did) : Prop :=
  b.Reachable d ∨ (∃ p c, b.train p (d, c) ≠ .idle) ∨ ∃ p c, DidSet.has (b.snapshot p c) d = true

/-- U_d, the usage of a DID summed over the granted classes (R49). -/
def Ledger.used (b : Ledger) (d : Did) : Nat := (b.usage d .c1).total + (b.usage d .c2).total + (b.usage d .c3).total

def Ledger.excess (b : Ledger) (d : Did) : Nat := b.used d - b.floor d

def Ledger.excessSum (b : Ledger) : Nat := (allDids.map b.excess).sum

def Ledger.sharedPool (b : Ledger) : Int := sharedPoolOf b.poolSize (allDids.map b.floor).sum

/-- `n` further cells of DID `d` fit into its floor and the free shared space (R50, R51). -/
def Ledger.Room (b : Ledger) (d : Did) (n : Nat) : Prop :=
  b.used d + n - b.floor d ≤ b.excess d + (b.sharedPool - b.excessSum).toNat

/-- What the monitor and the pattern unit of a port in link state `l` keep (R31, R183, R185, R189). -/
structure MonitorsInRange (l : LinkState) (m : StuckMonitor) (u : PatternUnit) : Prop where
  stuck : m.InRange
  unit : u.InRange
  running : u.running = true → l = .test
  search : l = .test → u.sync = .searching → u.matchRun < 64

/-! ### The entries -/

/-- One entry of the books `b`. `ex` are the DIDs whose port may change or leave UP in it: what such a DID holds is
settled by the entries that follow. -/
inductive Ledger.Entry (ex : Did → Prop) (b : Ledger) : Ledger → Prop
  /-- A refusal is queued (R69). -/
  | refused (p : PortId) (r : RefusalEntry) (fresh : r ∉ b.refusals p) (room : (b.refusals p).length < 4) :
      Entry ex b { b with refusals := update b.refusals p (b.refusals p ++ [r]) }
  /-- Refusals leave their outbox (R70). -/
  | refusalsGone (p : PortId) (l : List RefusalEntry) (sub : l.Sublist (b.refusals p)) :
      Entry ex b { b with refusals := update b.refusals p l }
  /-- A record closes, its remaining count returned and its unsent entry withdrawn (R59, R71, R79). -/
  | recordClosed (p : PortId) (d : Did) (c : GClass) (g : GrantRec) (record : b.grant p (d, c) = some g) :
      Entry ex b { b with
        usage := put b.usage d c (Usage.unreserve g.remaining (b.usage d c)), grant := put b.grant p (d, c) none,
        outbox := update b.outbox p (outboxWithout d c (b.outbox p)) }
  /-- A record is cut to `n`, the difference returned (R68). -/
  | recordCut (p : PortId) (d : Did) (c : GClass) (g : GrantRec) (n : Nat) (record : b.grant p (d, c) = some g)
      (pos : 1 ≤ n) (less : n < g.remaining) :
      Entry ex b { b with
        usage := put b.usage d c (Usage.unreserve (g.remaining - n) (b.usage d c)),
        grant := put b.grant p (d, c) (some { g with remaining := n }),
        outbox := update b.outbox p (outboxCapped d c n (b.outbox p)) }
  /-- A bid is entered, at or above the remaining count of its record (R66). -/
  | bidEntered (p : PortId) (d : Did) (c : GClass) (n : Nat) (reach : b.Reachable d) (pos : 1 ≤ n) (top : n ≤ 255)
      (within : ∀ g, b.grant p (d, c) = some g → g.remaining ≤ n) :
      Entry ex b { b with bids := put b.bids d c (bidsWith p n (b.bids d c)) }
  /-- Bids of sources without a record are removed (R67, R87, R89). -/
  | bidsGone (d : Did) (c : GClass) (l : List BidEntry) (sub : l.Sublist (b.bids d c))
      (kept : ∀ e ∈ b.bids d c, b.grant e.src (d, c) ≠ none → e ∈ l) :
      Entry ex b { b with bids := put b.bids d c l }
  /-- What port `p` held as a source is gone (R85). -/
  | sourceGone (p : PortId) :
      Entry ex b { b with
        bids := fun d c => bidsWithout p (b.bids d c),
        usage := fun d c => Usage.unreserve (remainingOf (b.grant p (d, c))) (b.usage d c),
        grant := update b.grant p fun _ => none, outbox := update b.outbox p [], refusals := update b.refusals p [] }
  /-- A grant of `q` is issued to the bid `e` (R73 to R77). -/
  | grantIssued (d : Did) (c : GClass) (e : BidEntry) (q : Nat) (reach : b.Reachable d) (bid : e ∈ b.bids d c)
      (need : q ≤ e.backlog - remainingOf (b.grant e.src (d, c))) (pos : 1 ≤ (b.classes.get c).grantMax → 1 ≤ q)
      (takes : (b.outbox e.src).length < 8 ∨ ∃ x ∈ b.outbox e.src, x.isFor d c = true) (room : b.Room d q) :
      Entry ex b { b with
        usage := put b.usage d c (Usage.reserve q (b.usage d c)),
        grant := put b.grant e.src (d, c) (some ⟨remainingOf (b.grant e.src (d, c)) + q, none⟩),
        outbox := update b.outbox e.src (outboxPlace d c q (b.outbox e.src)),
        bids := put b.bids d c (bidsWithout e.src (b.bids d c) ++ [e]) }
  /-- The oldest grants leave with a header, and their deadlines start (R70, R78). -/
  | grantsSent (p : PortId) (n time : Nat) :
      Entry ex b { b with
        grant := update b.grant p fun k => (b.grant p k).map fun y =>
          if ((b.outbox p).take n).any (fun x => x.isFor k.1 k.2) then { y with deadline := some time } else y,
        outbox := update b.outbox p ((b.outbox p).drop n) }
  /-- A DATA cell is admitted under its record (R55, R80, R92). -/
  | cellGranted (p : PortId) (d : Did) (c : GClass) (g : GrantRec) (x : StoredCell) (reach : b.Reachable d)
      (record : b.grant p (d, c) = some g) :
      Entry ex b { b with
        usage := put b.usage d c (b.usage d c).fill, bids := put b.bids d c (bidsLowered p (b.bids d c)),
        grant := put b.grant p (d, c) (if g.remaining - 1 = 0 then none else some { g with remaining := g.remaining - 1 }),
        outbox := update b.outbox p (if g.remaining - 1 = 0 then outboxWithout d c (b.outbox p)
          else outboxCapped d c (g.remaining - 1) (b.outbox p)),
        queue := put b.queue d c.cls (b.queue d c.cls ++ [.cell x]) }
  /-- A late DATA cell is admitted against the allowance (R56, R81, R92). -/
  | cellLate (p : PortId) (d : Did) (c : GClass) (x : StoredCell) (reach : b.Reachable d)
      (record : b.grant p (d, c) = none) (room : b.Room d 1) :
      Entry ex b { b with
        usage := put b.usage d c (b.usage d c).admitLate, bids := put b.bids d c (bidsLowered p (b.bids d c)),
        queue := put b.queue d c.cls (b.queue d c.cls ++ [.cell x]) }
  /-- A class-0 cell is admitted under a credit (R92, R99). -/
  | cellCredited (d : Did) (x : StoredCell) (reach : b.Reachable d) (credit : b.held x.src + b.owed x.src < 8) :
      Entry ex b { b with
        held := update b.held x.src (b.held x.src + 1), queue := put b.queue d .c0 (b.queue d .c0 ++ [.cell x]) }
  /-- A multicast cell is stored once, with a reference in the queue of each receiver (R132, R136, R137). -/
  | cellStored (c : GClass) (ds : List Did) (x : StoredCell) (live : ∀ d ∈ ds, b.Live d) (any : ds ≠ [])
      (apart : ds.Nodup) (free : b.poolUse < b.poolSize) :
      Entry ex b { b with
        mcCells := b.mcCells ++ [⟨b.mcNext, x, ds.length⟩], mcNext := b.mcNext + 1, poolUse := b.poolUse + 1,
        queue := fun d c' => b.queue d c' ++ if d ∈ ds ∧ c' = c.cls then [.mref b.mcNext] else [],
        refs := fun d g => b.refs d g + if d ∈ ds ∧ g = c then 1 else 0,
        mcHold := holdAfter b.mcHold (b.poolSize - (b.poolUse + 1)) b.holdOn b.holdOff }
  /-- A marker is placed (R47, R100). -/
  | markPlaced (k : MarkerKey) (live : b.Live k.did) (free : b.markerUse < 64) :
      Entry ex b { b with
        queue := put b.queue k.did k.cls (b.queue k.did k.cls ++ [.mark k.src k.mc]), markerUse := b.markerUse + 1 }
  /-- A marker is owed (R101). -/
  | markOwed (k : MarkerKey) (live : b.Live k.did) (full : 64 ≤ b.markerUse) (fresh : k ∉ b.owedMarkers) :
      Entry ex b { b with owedMarkers := b.owedMarkers ++ [k] }
  /-- Owed markers are cancelled, discarded or about to be served (R102, R103, R105, R106). -/
  | owedGone (l : List MarkerKey) (sub : l.Sublist b.owedMarkers) : Entry ex b { b with owedMarkers := l }
  /-- A credit is returned (R99, R155). -/
  | creditRefunded (p : PortId) (credit : b.held p + b.owed p < 8) :
      Entry ex b { b with owed := update b.owed p (b.owed p + 1) }
  /-- Credits are sent, or lost with the port (R155, R156). -/
  | creditsGone (p : PortId) (n : Nat) (less : n ≤ b.owed p) : Entry ex b { b with owed := update b.owed p n }
  /-- A command enters the command queue under a credit (R158). -/
  | commandQueued (x : CmdCell) (credit : b.held x.src + b.owed x.src < 8) (room : b.cmdQueue.length < 16) :
      Entry ex b { b with held := update b.held x.src (b.held x.src + 1), cmdQueue := b.cmdQueue ++ [x] }
  /-- The command unit takes the oldest command (R159). -/
  | commandTaken (x : CmdCell) (rest : List CmdCell) (head : b.cmdQueue = x :: rest) :
      Entry ex b { b.release x.src with cmdQueue := rest }
  /-- A unicast cell leaves its queue (R57, R119, R124). -/
  | cellLeaves (d : Did) (c : GClass) (x : StoredCell) (rest : List QEntry)
      (head : b.queue d c.cls = .cell x :: rest) :
      Entry ex b { b with queue := put b.queue d c.cls rest, usage := put b.usage d c (b.usage d c).release }
  /-- A class-0 cell leaves its queue, and its credit is released (R119, R124, R155). -/
  | creditLeaves (d : Did) (x : StoredCell) (rest : List QEntry) (head : b.queue d .c0 = .cell x :: rest) :
      Entry ex b { b.release x.src with queue := put b.queue d .c0 rest }
  /-- A reference leaves its queue, and no stored cell has its name. -/
  | refLost (d : Did) (c : Cls) (n : Nat) (rest : List QEntry) (head : b.queue d c = .mref n :: rest)
      (unnamed : ∀ m ∈ b.mcCells, m.name ≠ n) :
      Entry ex b { b with
        queue := put b.queue d c rest, refs := fun e g => b.refs e g - if e = d ∧ g.cls = c then 1 else 0 }
  /-- The last reference to a stored cell leaves its queue: the store is returned and the hold judged (R136, R137). -/
  | refLast (d : Did) (c : Cls) (n : Nat) (rest : List QEntry) (m : McCell) (head : b.queue d c = .mref n :: rest)
      (named : b.mcCells.find? (fun x => decide (x.name = n)) = some m) (last : m.fanOut ≤ 1) :
      Entry ex b { b with
        queue := put b.queue d c rest, refs := fun e g => b.refs e g - if e = d ∧ g.cls = c then 1 else 0,
        mcCells := b.mcCells.filter fun x => !decide (x.name = n), poolUse := b.poolUse - 1,
        mcHold := holdAfter b.mcHold (b.poolSize - (b.poolUse - 1)) b.holdOn b.holdOff }
  /-- Another reference to a stored cell leaves its queue (R136). -/
  | refLeaves (d : Did) (c : Cls) (n : Nat) (rest : List QEntry) (m : McCell) (head : b.queue d c = .mref n :: rest)
      (named : b.mcCells.find? (fun x => decide (x.name = n)) = some m) (more : 1 < m.fanOut) :
      Entry ex b { b with
        queue := put b.queue d c rest, refs := fun e g => b.refs e g - if e = d ∧ g.cls = c then 1 else 0,
        mcCells := b.mcCells.map fun x => if x.name = n then { x with fanOut := x.fanOut - 1 } else x }
  /-- A MARK leaves its queue, and its store finds no owed marker to place (R47, R102). -/
  | markLeaves (d : Did) (c : Cls) (src : PortId) (mc : Bool) (rest : List QEntry) (l : List MarkerKey)
      (head : b.queue d c = .mark src mc :: rest)
      (served : (b.markerUse - 1 < 64 ∧ l = []) ∨ (64 ≤ b.markerUse - 1 ∧ l = b.owedMarkers)) :
      Entry ex b { b with queue := put b.queue d c rest, markerUse := b.markerUse - 1, owedMarkers := l }
  /-- A MARK leaves its queue, and its store serves the oldest owed marker that can be placed (R47, R102). -/
  | markServes (d : Did) (c : Cls) (src : PortId) (mc : Bool) (rest : List QEntry) (k : MarkerKey)
      (l : List MarkerKey) (head : b.queue d c = .mark src mc :: rest) (sub : (k :: l).Sublist b.owedMarkers)
      (reach : b.Reachable k.did) (free : b.markerUse - 1 < 64) :
      Entry ex b { b with
        queue := put (put b.queue d c rest) k.did k.cls (put b.queue d c rest k.did k.cls ++ [.mark k.src k.mc]),
        markerUse := b.markerUse - 1 + 1, owedMarkers := l }
  /-- An element cell is placed (R157). -/
  | elementPlaced (p : PortId) (room : b.elementUse < 32) :
      Entry ex b { b with elements := update b.elements p (b.elements p + 1), elementUse := b.elementUse + 1 }
  /-- Element cells depart or are discarded (R119, R125, R157). -/
  | elementsGone (p : PortId) (n : Nat) (enough : n ≤ b.elements p) :
      Entry ex b { b with elements := update b.elements p (b.elements p - n), elementUse := b.elementUse - n }
  /-- Train entries and snapshots are written: a train runs to a DID, and a snapshot names it, only where a marker of
  that DID may be made (R95, R104 to R106, R130, R139, R140). -/
  | trainsTurned (train : PortId → Did × Cls → TrainState) (snapshot : PortId → GClass → DidSet)
      (trains : ∀ p d c, train p (d, c) ≠ .idle → b.Live d)
      (snapshots : ∀ p c d, DidSet.has (snapshot p c) d = true → b.Live d) :
      Entry ex b { b with train := train, snapshot := snapshot }
  /-- The monitors of a port are written within their ranges, or its link leaves UP (R25, R31, R183). -/
  | monitorsTurned (p : PortId) (l : LinkState) (m : StuckMonitor) (u : PatternUnit)
      (range : MonitorsInRange (b.link p) (b.stuck p) (b.test p) → MonitorsInRange l m u)
      (up : l = .up → b.link p = .up) (left : b.link p = .up → l ≠ .up → ∀ d, b.portOf d = some p → ex d) :
      Entry ex b { b with link := update b.link p l, stuck := update b.stuck p m, test := update b.test p u }
  /-- Port `p` comes up (R25, R112, R156). -/
  | portRaised (p : PortId) (untested : b.link p ≠ .test) :
      Entry ex b { b with
        link := update b.link p .up, owed := update b.owed p (8 - b.held p),
        round := update b.round p (Round.start (b.cadence p) b.classes) }
  /-- The scheduler of a port turns (R112 to R117). -/
  | roundTurned (p : PortId) (r : Round)
      (range : (∀ c, (b.classes.get c).weight ≤ 15) → 1 ≤ (b.cadence p).length → (b.cadence p).length ≤ 16 →
        (b.round p).InRange → r.InRange) :
      Entry ex b { b with round := update b.round p r }
  /-- A cadence is stored (R164). -/
  | cadenceSet (p : PortId) (l : List Bool) (least : 1 ≤ l.length) (top : l.length ≤ 16) :
      Entry ex b { b with cadence := update b.cadence p l }
  /-- The entry of a DID is written (R144, R149). -/
  | remapped (d : Did) (m : Option PortId) (moved : ex d) :
      Entry ex b { b with portOf := update b.portOf d m }

/-! ### Series of entries -/

/-- From `s` to `t` leads a series of entries. -/
def State.Booked (ex : Did → Prop) (s t : State) : Prop := Relation.ReflTransGen (Ledger.Entry ex) s.ledger t.ledger

namespace State.Booked

variable {ex : Did → Prop} {s t u : State}

theorem refl (s : State) : s.Booked ex s := Relation.ReflTransGen.refl

theorem trans (h : s.Booked ex t) (k : t.Booked ex u) : s.Booked ex u := Relation.ReflTransGen.trans h k

theorem same (h : t.ledger = s.ledger) : s.Booked ex t := by
  unfold State.Booked
  rw [h]

/-- An operation that makes one entry. -/
theorem entry {b : Ledger} (e : Ledger.Entry ex s.ledger b) (h : t.ledger = b) : s.Booked ex t := by
  unfold State.Booked
  rw [h]
  exact .single e

theorem foldl {α : Type} {f : State → α → State} (h : ∀ (t : State) (x : α), t.Booked ex (f t x)) (s : State)
    (xs : List α) : s.Booked ex (xs.foldl f s) := by
  induction xs generalizing s with
  | nil => exact .refl s
  | cons x xs ih => exact (h s x).trans (ih _)

/-- An invariant of the entries holds at the end of a series of them. -/
theorem keeps {law : Ledger → Prop} (h : ∀ b c, Ledger.Entry ex b c → law b → law c) (k : s.Booked ex t)
    (hs : law s.ledger) : law t.ledger :=
  Relation.ReflTransGen.head_induction_on (motive := fun b _ => law b → law t.ledger) k id
    (fun e _ ih hb => ih (h _ _ e hb)) hs

end State.Booked

/-- A series of entries that leaves each DID it moved without a reachable port bare. -/
def State.Event (s t : State) : Prop :=
  ∃ ex, s.Booked ex t ∧ ∀ d, ex d → ¬ t.ledger.Reachable d → t.ledger.Bare d

/-- A series of events. -/
def State.Runs (s t : State) : Prop := Relation.ReflTransGen State.Event s t

theorem State.Booked.runs {s t : State} (h : s.Booked (fun _ => False) t) : s.Runs t := .single ⟨_, h, fun _ => nofun⟩

theorem State.Event.runs {s t : State} (h : s.Event t) : s.Runs t := .single h

theorem State.Runs.trans {s t u : State} (h : s.Runs t) (k : t.Runs u) : s.Runs u := Relation.ReflTransGen.trans h k

end Sys2Proof.Machine
end

section
/-! PROOFS. The entries that traffic makes: bids and grants, markers, arrivals, departures, element cells and commands. -/

namespace Sys2Proof.Machine

open Function (update)

variable {ex : Did → Prop}

/-- Two entries made together. -/
theorem State.Booked.entries {s t : State} {b c : Ledger} (e : Ledger.Entry ex s.ledger b) (f : Ledger.Entry ex b c)
    (h : t.ledger = c) : s.Booked ex t := by
  unfold State.Booked
  rw [h]
  exact .head e (.single f)

theorem State.countPort_booked (s : State) (p : PortId) (f : PortCounters → PortCounters) :
    s.Booked ex (s.countPort p f) := .same (s.countPort_ledger p f)

theorem State.countDid_booked (s : State) (d : Did) (f : DidCounters → DidCounters) : s.Booked ex (s.countDid d f) :=
  .same (s.countDid_ledger d f)

/-! ### Refusals, records and bids -/

theorem State.refuse_booked (s : State) (p : PortId) (r : RefusalEntry) : s.Booked ex (s.refuse p r) := by
  obtain ⟨-, e⟩ | ⟨-, -, -, e⟩ | ⟨-, fresh, room, e⟩ := s.refuse_cases p r <;> rw [e]
  · exact .refl s
  · exact s.countPort_booked p _
  · exact .entry (.refused p r fresh room) (s.setRefusals_ledger p _)

theorem State.closeGrant_booked (s : State) (p : PortId) (d : Did) (c : GClass) : s.Booked ex (s.closeGrant p d c) := by
  obtain ⟨-, e⟩ | ⟨g, record, e⟩ := s.closeGrant_cases p d c <;> rw [e]
  · exact .refl s
  · exact .entry (.recordClosed p d c g record)
      (by rw [State.updOutbox_ledger, State.setGrant_ledger, State.updUsage_ledger])

theorem State.setBids_booked (s : State) {d : Did} {c : GClass} {l : List BidEntry} (sub : l.Sublist (s.bids d c))
    (kept : ∀ e ∈ s.bids d c, s.grant e.src d c ≠ none → e ∈ l) : s.Booked ex (s.setBids d c l) :=
  .entry (.bidsGone d c l sub kept) (s.setBids_ledger d c l)

/-- The books after a record was closed or not. -/
theorem State.closeGrant_ledger_bids (s : State) (p : PortId) (d : Did) (c : GClass) (q : List BidEntry) :
    ((s.setBids d c q).closeGrant p d c).ledger = ((s.closeGrant p d c).setBids d c q).ledger := by
  have grant : (s.setBids d c q).grant p d c = s.grant p d c := by
    unfold State.grant State.setBids
    rw [State.updDid_port]
  unfold State.closeGrant
  rw [grant]
  cases s.grant p d c with
  | none => rfl
  | some g => simp only [State.updOutbox_ledger, State.setGrant_ledger, State.updUsage_ledger, State.setBids_ledger]

theorem bidsWithout_sublist (p : PortId) (q : List BidEntry) : (bidsWithout p q).Sublist q := List.filter_sublist

theorem mem_bidsWithout {p : PortId} {q : List BidEntry} {e : BidEntry} : e ∈ bidsWithout p q ↔ e ∈ q ∧ e.src ≠ p := by
  unfold bidsWithout
  rw [List.mem_filter, Bool.not_eq_true', decide_eq_false_iff_not]

theorem State.withdrawBid_booked (s : State) (p : PortId) (d : Did) (c : GClass) : s.Booked ex (s.withdrawBid p d c) := by
  unfold State.withdrawBid
  split_ifs
  · have bids : (s.closeGrant p d c).bids d c = s.bids d c := s.closeGrant_bids p d c d c
    have removed : (s.closeGrant p d c).Booked ex ((s.closeGrant p d c).setBids d c (bidsWithout p (s.bids d c))) := by
      refine State.setBids_booked _ (by rw [bids]; exact bidsWithout_sublist p _) fun e he hg => ?_
      rw [bids] at he
      refine mem_bidsWithout.2 ⟨he, fun src => hg ?_⟩
      rw [State.closeGrant_grant, if_pos ⟨src, rfl, rfl⟩]
    exact (s.closeGrant_booked p d c).trans (removed.trans (.same (s.closeGrant_ledger_bids p d c _)))
  · exact .refl s

theorem State.enterBid_booked (s : State) (p : PortId) {d : Did} (c : GClass) {n : Nat} (reach : s.reachable d = true)
    (pos : 1 ≤ n) (top : n ≤ 255) : s.Booked ex (s.enterBid p d c n) := by
  have reach' := (s.reachable_ledger d).1 reach
  have grant : (s.setBids d c (bidsWith p n (s.bids d c))).grant p d c = s.grant p d c := by
    unfold State.grant State.setBids
    rw [State.updDid_port]
  unfold State.enterBid State.cutGrant
  rw [grant]
  have entered (within : ∀ g, s.grant p d c = some g → g.remaining ≤ n) :
      s.Booked ex (s.setBids d c (bidsWith p n (s.bids d c))) :=
    .entry (.bidEntered p d c n reach' pos top within) (s.setBids_ledger d c _)
  cases record : s.grant p d c with
  | none => exact entered fun g h => absurd (record.symm.trans h) nofun
  | some g =>
    dsimp only
    split_ifs with less
    · refine .entries (.recordCut p d c g n record pos less) (.bidEntered p d c n reach' pos top fun g' h => ?_)
        (by rw [State.updOutbox_ledger, State.setGrant_ledger, State.updUsage_ledger, State.setBids_ledger]; rfl)
      cases (put_self s.ledger.grant p (d, c) _).symm.trans h
      exact Nat.le_refl n
    · refine entered fun g' h => ?_
      cases record.symm.trans h
      exact Nat.le_of_not_lt less

theorem State.takeBid_booked (s : State) (p : PortId) {b : BidSlot} (top : b.count ≤ 255) :
    s.Booked ex (s.takeBid p b) := by
  unfold State.takeBid
  split
  · exact .refl s
  · split
    · exact s.countPort_booked p _
    · split_ifs with zero
      · exact s.withdrawBid_booked p _ _
      · split
        · exact s.refuse_booked p _
        · next q hq =>
          split_ifs with up
          · refine s.enterBid_booked p _ ?_ (Nat.one_le_iff_ne_zero.2 zero) top
            unfold State.reachable
            rw [hq]
            exact up
          · exact s.refuse_booked p _

theorem State.refusals_booked (s : State) (r : RefusalEntry) (es : List BidEntry) :
    s.Booked ex (es.foldl (fun t e => t.refuse e.src r) s) := by
  induction es generalizing s with
  | nil => exact .refl s
  | cons e es ih => exact (s.refuse_booked e.src r).trans (ih _)

/-- Bids of a DID without records are removed (R87, R89). -/
theorem State.removeBids_booked (s : State) {d : Did} {c : GClass} (why : Reason) (h : ∀ q, s.grant q d c = none) :
    s.Booked ex (s.removeBids d c why) := by
  refine (s.refusals_booked _ (s.bids d c)).trans (State.setBids_booked _ (List.nil_sublist _) fun e _ hg => ?_)
  rw [State.refusals_grant] at hg
  exact absurd (h e.src) hg

theorem State.revokeOne_booked (s : State) (d : Did) (c : GClass) (p : PortId) : s.Booked ex (s.revokeOne d c p) := by
  unfold State.revokeOne
  split
  · exact .refl s
  · exact (s.closeGrant_booked p d c).trans (State.refuse_booked _ p _)

theorem State.revokeClass_booked (s : State) (d : Did) (c : GClass) : s.Booked ex (s.revokeClass d c) :=
  State.Booked.foldl (f := fun t p => t.revokeOne d c p) (fun t p => t.revokeOne_booked d c p) s _

theorem State.revoke_booked (s : State) (d : Did) : s.Booked ex (s.revoke d) :=
  State.Booked.foldl (f := fun t c => t.revokeClass d c) (fun t c => t.revokeClass_booked d c) s _

theorem State.grantDestDown_booked (s : State) (d : Did) : s.Booked ex (s.grantDestDown d) :=
  State.Booked.foldl (f := fun t c => (t.revokeClass d c).removeBids d c .destDown)
    (fun t c => (t.revokeClass_booked d c).trans (State.removeBids_booked _ _ (t.revokeClass_grant d c))) s _

/-- The bids of a DID without records are judged against its entry (R89). -/
theorem State.rejudgeBids_booked (s : State) {d : Did} (h : ∀ q c, s.grant q d c = none) :
    s.Booked ex (s.rejudgeBids d) := by
  have removed (why : Reason) (cs : List GClass) (t : State) (ht : ∀ q c, t.grant q d c = none) :
      t.Booked ex (cs.foldl (fun u c => u.removeBids d c why) t) := by
    induction cs generalizing t with
    | nil => exact .refl t
    | cons c cs ih =>
      exact (t.removeBids_booked why (ht · c)).trans (ih _ fun q g => by rw [State.removeBids_grant, ht])
  unfold State.rejudgeBids
  split
  · exact removed _ _ s h
  · split_ifs
    · exact .refl s
    · exact removed _ _ s h

/-! ### The arbiter and the expiry -/

/-- Cells within an allowance find room (R50, R51). -/
theorem State.allowance_room (s : State) {d : Did} {c : GClass} {n : Nat} (h : n ≤ s.allowance d c) : s.ledger.Room d n := by
  have used : s.ledger.used d = (s.did d).used := rfl
  have excess : s.ledger.excess d = s.excess d := rfl
  have free : (s.ledger.sharedPool - s.ledger.excessSum).toNat = s.freeShared := rfl
  unfold Ledger.Room
  rw [used, excess, free, show s.ledger.floor d = (s.did d).floor from rfl]
  unfold State.allowance allowanceOf at h
  have sum := s.floorUse_add_excess d
  have surplus : s.excess d = (s.did d).used - (s.did d).floor := rfl
  omega

theorem State.issuable_reachable {s : State} {d : Did} (h : s.issuable d = true) : s.reachable d = true := by
  unfold State.issuable at h
  unfold State.reachable State.portOf
  split at h
  · next p hm =>
    rw [hm]
    exact h
  · cases h

theorem State.arbitrate_booked (s : State) (d : Did) (c : GClass) : s.Booked ex (s.arbitrate d c) := by
  obtain ⟨-, e⟩ | ⟨e, candidate, he⟩ := s.arbitrate_cases d c
  · rw [e]
    exact .refl s
  · obtain ⟨issuable, allowance, bid, need, takes⟩ := State.candidate_spec candidate
    rw [he]
    refine .entry (.grantIssued d c e (s.quota d c e) ((s.reachable_ledger d).1 (State.issuable_reachable issuable)) bid
      (Nat.min_le_left _ _) (fun h => ?_) ((s.outboxTakes_iff _ d c).1 takes) (s.allowance_room (c := c) ?_))
      (s.issueGrant_ledger d c e _)
    · exact le_min need (le_min h allowance)
    · exact (Nat.min_le_right _ _).trans (Nat.min_le_right _ _)

theorem State.expire_booked (s : State) (p : PortId) (d : Did) (c : GClass) : s.Booked ex (s.expire p d c) := by
  unfold State.expire
  split
  · next n t _ =>
    have clock : s.Booked ex { s with now := max s.now t } := .same rfl
    exact clock.trans ((State.closeGrant_booked _ p d c).trans (State.countPort_booked _ p _))
  · exact .refl s

/-! ### Markers -/

theorem Ledger.Reachable.live {b : Ledger} {d : Did} (h : b.Reachable d) : b.Live d := .inl h

theorem State.placeMark_ledger (s : State) (k : MarkerKey) : (s.placeMark k).ledger = { s.ledger with
    queue := put s.ledger.queue k.did k.cls (s.ledger.queue k.did k.cls ++ [.mark k.src k.mc]),
    markerUse := s.ledger.markerUse + 1 } := by
  have enqueued := s.enqueue_ledger k.did k.cls (.mark k.src k.mc)
  have marked : (s.placeMark k).ledger = { (s.enqueue k.did k.cls (.mark k.src k.mc)).ledger with
      markerUse := s.ledger.markerUse + 1 } := rfl
  rw [marked, enqueued]

theorem State.makeMark_booked (s : State) {k : MarkerKey} (live : s.ledger.Live k.did) : s.Booked ex (s.makeMark k) := by
  obtain ⟨free, e⟩ | ⟨-, -, e⟩ | ⟨full, fresh, e⟩ := s.makeMark_cases k <;> rw [e]
  · exact .entry (.markPlaced k live free) (s.placeMark_ledger k)
  · exact .refl s
  · exact .entry (.markOwed k live full fresh) rfl

theorem State.makeMark_live (s : State) (k : MarkerKey) (d : Did) : (s.makeMark k).ledger.Live d ↔ s.ledger.Live d := by
  obtain ⟨-, e⟩ | ⟨-, -, e⟩ | ⟨-, -, e⟩ := s.makeMark_cases k <;> rw [e]
  · rw [State.placeMark_ledger]
    rfl
  · rfl

theorem State.makeMarks_live (s : State) (ks : List MarkerKey) (d : Did) :
    (s.makeMarks ks).ledger.Live d ↔ s.ledger.Live d := by
  unfold State.makeMarks
  induction ks generalizing s with
  | nil => rfl
  | cons k ks ih => exact (ih _).trans (s.makeMark_live k d)

theorem State.makeMarks_booked (s : State) {ks : List MarkerKey} (live : ∀ k ∈ ks, s.ledger.Live k.did) :
    s.Booked ex (s.makeMarks ks) := by
  unfold State.makeMarks
  induction ks generalizing s with
  | nil => exact .refl s
  | cons k ks ih =>
    exact (s.makeMark_booked (live k List.mem_cons_self)).trans
      (ih _ fun x hx => (s.makeMark_live k x.did).2 (live x (List.mem_cons_of_mem _ hx)))

theorem State.cancelMark_booked (s : State) (k : MarkerKey) : s.Booked ex (s.cancelMark k) :=
  .entry (.owedGone _ List.filter_sublist) rfl

theorem State.discardMarksOf_booked (s : State) (d : Did) : s.Booked ex (s.discardMarksOf d) :=
  .entry (.owedGone _ List.filter_sublist) rfl

theorem State.owedServable_sublist (s : State) : s.owedServable.Sublist s.owedMarkers := List.dropWhile_sublist _

/-- The head of what can be served is reachable (R102). -/
theorem State.owedServable_head {s : State} {k : MarkerKey} {rest : List MarkerKey} (h : s.owedServable = k :: rest) :
    s.ledger.Reachable k.did := by
  rw [← State.reachable_ledger]
  have served : s.owedMarkers.dropWhile (fun x => !s.reachable x.did) = k :: rest := h
  have head := List.head_dropWhile_not (fun x : MarkerKey => !s.reachable x.did) (l := s.owedMarkers)
    (by rw [served]; exact List.cons_ne_nil k rest)
  simpa only [served, List.head_cons, Bool.not_eq_false'] using head

theorem State.serveOwed_booked (s : State) : s.Booked ex s.serveOwed := by
  obtain ⟨-, e⟩ | ⟨-, -, e⟩ | ⟨free, k, rest, served, e⟩ := s.serveOwed_cases <;> rw [e]
  · exact .refl s
  · exact .entry (.owedGone [] (List.nil_sublist _)) rfl
  · have sub : rest.Sublist s.owedMarkers := (List.sublist_cons_self k rest).trans (served ▸ s.owedServable_sublist)
    exact .entries (.owedGone rest sub) (.markPlaced k (Ledger.Reachable.live (State.owedServable_head served)) free)
      (State.placeMark_ledger _ k)

end Sys2Proof.Machine
end

section
/-! PROOFS. The entries that arrivals make: trains, unicast, class-0 and multicast cells, and commands. -/

namespace Sys2Proof.Machine

open Function (update)

variable {ex : Did → Prop}

/-! ### Trains and snapshots -/

theorem Ledger.Live.ofTrain {b : Ledger} {p : PortId} {d : Did} {c : Cls} (h : b.train p (d, c) ≠ .idle) : b.Live d :=
  .inr (.inl ⟨p, c, h⟩)

theorem Ledger.Live.ofSnapshot {b : Ledger} {p : PortId} {c : GClass} {d : Did}
    (h : DidSet.has (b.snapshot p c) d = true) : b.Live d := .inr (.inr ⟨p, c, h⟩)

/-- An operation that writes trains and snapshots alone. -/
theorem State.Keeps.booked {s t : State} (h : s.Keeps .trains t)
    (trains : ∀ p d c, t.train p d c ≠ .idle → s.ledger.Live d)
    (snapshots : ∀ p c d, DidSet.has (t.mcTrain p c).snapshot d = true → s.ledger.Live d) : s.Booked ex t :=
  .entry (.trainsTurned _ _ trains snapshots)
    (h.coarsen (V := .untrained) (fun _ => rfl) (fun _ => rfl) fun _ => rfl).ledger

theorem State.setTrain_train (s : State) (p : PortId) (d : Did) (c : Cls) (x : TrainState) (q : PortId) (e : Did)
    (g : Cls) : (s.setTrain p d c x).train q e g = if q = p ∧ e = d ∧ g = c then x else s.train q e g := by
  unfold State.setTrain State.train
  rw [State.updPort_port]
  by_cases hq : q = p
  · subst hq
    unfold Port.train Port.setTrain
    by_cases he : e = d
    · subst he
      by_cases hg : g = c
      · subst hg; simp
      · simp [hg, PerClass.get_set_ne]
    · have : d.val ≠ e.val := fun x => he (Fin.ext x.symm)
      simp [he, this]
  · simp [hq]

theorem State.setTrain_booked (s : State) (p : PortId) {d : Did} (c : Cls) {x : TrainState}
    (live : x ≠ .idle → s.ledger.Live d) : s.Booked ex (s.setTrain p d c x) := by
  refine State.Keeps.booked (.updPort _ _ p fun _ => rfl) (fun q e g h => ?_) fun q g e h => ?_
  · rw [State.setTrain_train] at h
    split_ifs at h with he
    · exact he.2.1 ▸ live h
    · exact .ofTrain h
  · have kept : (s.setTrain p d c x).mcTrain q g = s.mcTrain q g := by
      unfold State.setTrain State.mcTrain
      rw [State.updPort_port]
      split_ifs <;> rfl
    exact .ofSnapshot (kept ▸ h)

theorem State.setMcTrain_mcTrain (s : State) (p : PortId) (c : GClass) (r : McTrain) (q : PortId) (g : GClass) :
    (s.setMcTrain p c r).mcTrain q g = if q = p ∧ g = c then r else s.mcTrain q g := by
  unfold State.setMcTrain State.mcTrain
  rw [State.updPort_port]
  by_cases hq : q = p
  · by_cases hg : g = c
    · rw [hg, if_pos hq, if_pos ⟨hq, rfl⟩, PerG.get_set_self]
    · rw [if_pos hq, if_neg (fun x => hg x.2), PerG.get_set_ne _ _ hg]
  · rw [if_neg hq, if_neg (fun x => hq x.1)]

theorem State.setMcTrain_booked (s : State) (p : PortId) (c : GClass) {r : McTrain}
    (live : ∀ d, DidSet.has r.snapshot d = true → s.ledger.Live d) : s.Booked ex (s.setMcTrain p c r) := by
  refine State.Keeps.booked (.updPort _ _ p fun _ => rfl) (fun q e g h => ?_) fun q g e h => ?_
  · have kept : (s.setMcTrain p c r).train q e g = s.train q e g := by
      unfold State.setMcTrain State.train
      rw [State.updPort_port]
      split_ifs <;> rfl
    exact .ofTrain (kept ▸ h)
  · rw [State.setMcTrain_mcTrain] at h
    split_ifs at h
    · exact live e h
    · exact .ofSnapshot h

theorem DidSet.has_zero (d : Did) : DidSet.has 0 d = false := BitVec.getLsbD_zero

theorem State.setMcTrain_idle_booked (s : State) (p : PortId) (c : GClass) : s.Booked ex (s.setMcTrain p c .idle) :=
  s.setMcTrain_booked p c fun d h => absurd ((DidSet.has_zero d).symm.trans h) nofun

/-! ### Unicast and class-0 cells -/

theorem State.refundCredit_booked (s : State) (p : PortId) : s.Booked ex (s.refundCredit p) := by
  unfold State.refundCredit
  split_ifs with h
  · rw [Bool.and_eq_true] at h
    exact .entry (.creditRefunded p ((s.creditOk_iff p).1 h.1)) (s.setOwed_ledger p _)
  · exact .refl s

theorem State.refundIfClass0_booked (s : State) (p : PortId) (c : Cls) : s.Booked ex (s.refundIfClass0 p c) := by
  unfold State.refundIfClass0
  split
  · exact s.refundCredit_booked p
  · exact .refl s

/-- A train to a live DID ends with a marker (R95). -/
theorem State.endTrain_booked (s : State) (p : PortId) {d : Did} (c : Cls) (live : s.ledger.Live d)
    (again : (s.setTrain p d c .idle).ledger.Live d) :
    s.Booked ex ((s.setTrain p d c .idle).makeMark { src := p, did := d, cls := c, mc := false }) :=
  (s.setTrain_booked p c fun _ => live).trans (State.makeMark_booked _ again)

theorem State.Keeps.reachable_trains {s t : State} (h : s.Keeps .trains t) {d : Did} (reach : s.ledger.Reachable d) :
    t.ledger.Reachable d := by
  rw [(h.coarsen (V := .untrained) (fun _ => rfl) (fun _ => rfl) fun _ => rfl).ledger]
  exact reach

theorem State.setTrain_reachable {s : State} (p : PortId) {d : Did} (c : Cls) (x : TrainState) {e : Did}
    (reach : s.ledger.Reachable e) : (s.setTrain p d c x).ledger.Reachable e :=
  State.Keeps.reachable_trains (show s.Keeps .trains (s.setTrain p d c x) from .updPort _ _ p fun _ => rfl) reach

theorem State.refuseCandidate_booked (s : State) (p : PortId) {d : Did} (c : Cls) (first last : Bool) (why : Drop)
    (reach : s.ledger.Reachable d) : s.Booked ex (s.refuseCandidate p d c first last why) := by
  have reach' : (s.countPort p why).ledger.Reachable d := (s.countPort_ledger p why) ▸ reach
  unfold State.refuseCandidate
  dsimp only
  refine (s.countPort_booked p why).trans ?_
  split_ifs
  · exact State.setTrain_booked _ p c fun _ => reach'.live
  · exact .refl _
  · exact State.endTrain_booked _ p c reach'.live (State.setTrain_reachable p c _ reach').live

/-- What follows the entry of an admitted cell: its train and the owed marker it cancels (R95, R96). -/
theorem State.admitted_booked (s : State) (p : PortId) {d : Did} (c : Cls) (x : StoredCell)
    (reach : s.ledger.Reachable d) :
    s.Booked ex (let t := s.setTrain p d c (trainAfterAdmit x.last)
      if x.first then t.cancelMark { src := p, did := d, cls := c, mc := false } else t) := by
  have turned : s.Booked ex (s.setTrain p d c (trainAfterAdmit x.last)) := s.setTrain_booked p c fun _ => reach.live
  dsimp only
  split_ifs
  · exact turned.trans (State.cancelMark_booked _ _)
  · exact turned

/-- A cell admitted by an entry that leaves its DID reachable. -/
theorem State.Booked.admitCell {s t : State} {p : PortId} {d : Did} {c : Cls} {x : StoredCell}
    (h : s.Booked ex (t.enqueue d c (.cell x))) (reach : (t.enqueue d c (.cell x)).ledger.Reachable d) :
    s.Booked ex (t.admitCell p d c x) :=
  h.trans (State.admitted_booked _ p c x reach)

theorem State.admitUnderGrant_ledger (s : State) (p : PortId) (d : Did) (c : GClass) (g : GrantRec) :
    (s.admitUnderGrant p d c g).ledger = { s.ledger with
      usage := put s.ledger.usage d c (s.ledger.usage d c).fill,
      bids := put s.ledger.bids d c (bidsLowered p (s.ledger.bids d c)),
      grant := put s.ledger.grant p (d, c)
        (if g.remaining - 1 = 0 then none else some { g with remaining := g.remaining - 1 }),
      outbox := update s.ledger.outbox p (if g.remaining - 1 = 0 then outboxWithout d c (s.ledger.outbox p)
        else outboxCapped d c (g.remaining - 1) (s.ledger.outbox p)) } := by
  unfold State.admitUnderGrant
  dsimp only
  split_ifs <;> simp only [State.updOutbox_ledger, State.setGrant_ledger, State.setBids_ledger, State.updUsage_ledger] <;>
    rfl

theorem State.admitLate_ledger (s : State) (p : PortId) (d : Did) (c : GClass) :
    (s.admitLate p d c).ledger = { s.ledger with
      usage := put s.ledger.usage d c (s.ledger.usage d c).admitLate,
      bids := put s.ledger.bids d c (bidsLowered p (s.ledger.bids d c)) } := by
  unfold State.admitLate
  rw [State.setBids_ledger, State.updUsage_ledger]
  rfl

theorem State.offerData_booked (s : State) (p : PortId) {d : Did} (c : GClass) (x : StoredCell)
    (reach : s.ledger.Reachable d) : s.Booked ex (s.offerData p d c x) := by
  unfold State.offerData
  split
  · next g record =>
    have books := (s.admitUnderGrant p d c g).enqueue_ledger d c.cls (.cell x)
    rw [s.admitUnderGrant_ledger] at books
    exact .admitCell (.entry (.cellGranted p d c g x reach record) books) (books ▸ reach)
  · next record =>
    split_ifs with room
    · have books := (s.admitLate p d c).enqueue_ledger d c.cls (.cell x)
      rw [s.admitLate_ledger] at books
      exact .admitCell (.entry (.cellLate p d c x reach record (s.allowance_room room)) books) (books ▸ reach)
    · exact s.refuseCandidate_booked p c.cls _ _ _ reach

theorem State.offerClass0_booked (s : State) {d : Did} (x : StoredCell) (reach : s.ledger.Reachable d) :
    s.Booked ex (s.offerClass0 x.src d x) := by
  unfold State.offerClass0
  split_ifs with credit
  · have books := (s.holdCredit x.src).enqueue_ledger d .c0 (.cell x)
    rw [s.holdCredit_ledger] at books
    exact .admitCell (.entry (.cellCredited d x reach ((s.creditOk_iff _).1 credit)) books) (books ▸ reach)
  · exact s.refuseCandidate_booked x.src .c0 _ _ _ reach

/-- The return of a credit leaves the entries and the links. -/
theorem State.refundIfClass0_reachable {s : State} (p : PortId) (c : Cls) {d : Did} (reach : s.ledger.Reachable d) :
    (s.refundIfClass0 p c).ledger.Reachable d := by
  unfold State.refundIfClass0 State.refundCredit
  split
  · split_ifs
    · rw [State.setOwed_ledger]
      exact reach
    · exact reach
  · exact reach

/-- A cell of a BROKEN train: counted, and at its LAST the train ends with a marker (R95, R97). -/
def State.brokenStep (s : State) (p : PortId) (d : Did) (c : Cls) (last refused : Bool) : State :=
  let t := (s.countPort p (dropCounter refused .incBroken)).refundIfClass0 p c
  if last then (t.setTrain p d c .idle).makeMark { src := p, did := d, cls := c, mc := false } else t

theorem State.trainStep_booked (s : State) {d : Did} (c : Cls) (x : StoredCell) (refused : Bool)
    (reach : s.ledger.Reachable d) : s.Booked ex (s.trainStep x.src d c x refused) := by
  have counted (why : Drop) : s.Booked ex ((s.countPort x.src why).refundIfClass0 x.src c) :=
    (s.countPort_booked x.src why).trans (State.refundIfClass0_booked _ _ _)
  have again (why : Drop) : ((s.countPort x.src why).refundIfClass0 x.src c).ledger.Reachable d :=
    State.refundIfClass0_reachable _ _ ((s.countPort_ledger x.src why).symm ▸ reach)
  have offered : s.Booked ex (match c.granted? with
      | some g => s.offerData x.src d g x
      | none => s.offerClass0 x.src d x) := by
    split
    · exact s.offerData_booked x.src _ x reach
    · exact s.offerClass0_booked x reach
  have broken : s.Booked ex (s.brokenStep x.src d c x.last refused) := by
    unfold State.brokenStep
    dsimp only
    split_ifs
    · exact (counted _).trans (State.endTrain_booked _ _ c (again _).live (State.setTrain_reachable _ c _ (again _)).live)
    · exact counted _
  by_cases candidate : (x.first || decide (s.train x.src d c = .open)) = true
  · unfold State.trainStep
    rw [if_pos candidate]
    by_cases bad : refused = true
    · rw [if_pos bad]
      exact (s.refuseCandidate_booked x.src c _ _ _ reach).trans (State.refundIfClass0_booked _ _ _)
    · rw [if_neg bad]
      exact offered
  · unfold State.trainStep
    rw [if_neg candidate]
    split
    · exact broken
    · exact counted _

theorem State.unicastArrival_booked (s : State) (p : PortId) (c : Cls) (h : IngressHeader) (payload : Payload)
    (good : Bool) : s.Booked ex (s.unicastArrival p c h payload good) := by
  unfold State.unicastArrival
  dsimp only
  split
  · exact (s.countDid_booked _ _).trans (State.refundIfClass0_booked _ _ _)
  · next q hq =>
    split_ifs with up
    · have reach : s.ledger.Reachable h.did := ⟨q, hq, of_decide_eq_true up⟩
      exact s.trainStep_booked c (storedOf p h payload good) _ reach
    · exact (s.countDid_booked _ _).trans (State.refundIfClass0_booked _ _ _)

/-! ### Sets of destinations -/

/-- The set of the members of a list that pass a test holds those and what it held before. -/
theorem DidSet.has_foldl (f : Did → Bool) (ds : List Did) (m : DidSet) (d : Did) :
    DidSet.has (ds.foldl (fun m e => if f e then m ||| (1#32 <<< e.val) else m) m) d = true ↔
      DidSet.has m d = true ∨ (d ∈ ds ∧ f d = true) := by
  have bit (e : Did) : (1#32 <<< e.val).getLsbD d.val = decide (d = e) := by
    rw [BitVec.getLsbD_shiftLeft]
    have hd := d.isLt
    have he := e.isLt
    by_cases h : d = e
    · subst h; simp
    · have : d.val ≠ e.val := fun x => h (Fin.ext x)
      by_cases hlt : d.val < e.val
      · simp [h, hlt]
      · have : d.val - e.val ≠ 0 := by omega
        simp [h, this, BitVec.getLsbD_one]
  induction ds generalizing m with
  | nil => simp
  | cons e es ih =>
    rw [List.foldl_cons]
    refine (ih _).trans ?_
    unfold DidSet.has
    by_cases he : f e = true
    · rw [if_pos he, BitVec.getLsbD_or, bit, Bool.or_eq_true, decide_eq_true_iff, List.mem_cons]
      constructor
      · rintro ((h | rfl) | ⟨h, hf⟩)
        · exact .inl h
        · exact .inr ⟨.inl rfl, he⟩
        · exact .inr ⟨.inr h, hf⟩
      · rintro (h | ⟨rfl | h, hf⟩)
        · exact .inl (.inl h)
        · exact .inl (.inr rfl)
        · exact .inr ⟨h, hf⟩
    · rw [if_neg he, List.mem_cons]
      constructor
      · rintro (h | ⟨h, hf⟩)
        · exact .inl h
        · exact .inr ⟨.inr h, hf⟩
      · rintro (h | ⟨rfl | h, hf⟩)
        · exact .inl h
        · exact absurd hf he
        · exact .inr ⟨h, hf⟩

theorem DidSet.has_ofPred (f : Did → Bool) (d : Did) : DidSet.has (DidSet.ofPred f) d = f d := by
  rw [Bool.eq_iff_iff]
  refine (DidSet.has_foldl f allDids 0 d).trans ?_
  rw [DidSet.has_zero]
  simp [allDids]

theorem DidSet.mem_members (m : DidSet) (d : Did) : d ∈ DidSet.members m ↔ DidSet.has m d = true := by
  unfold DidSet.members
  rw [List.mem_filter, allDids]
  exact and_iff_right (List.mem_finRange d)

theorem DidSet.members_nodup (m : DidSet) : (DidSet.members m).Nodup := (List.nodup_finRange 32).filter _

theorem DidSet.members_ne_nil {m : DidSet} (h : m ≠ 0) : DidSet.members m ≠ [] := by
  intro e
  refine h (BitVec.eq_of_getLsbD_eq fun i hi => ?_)
  refine Eq.trans ?_ BitVec.getLsbD_zero.symm
  rw [← Bool.not_eq_true]
  intro hm
  have member := (DidSet.mem_members m ⟨i, hi⟩).2 hm
  rw [e] at member
  cases member

theorem DidSet.has_diff (m n : DidSet) (d : Did) (h : DidSet.has (m &&& ~~~ n) d = true) : DidSet.has m d = true := by
  unfold DidSet.has at h
  rw [BitVec.getLsbD_and, Bool.and_eq_true] at h
  exact h.1

/-! ### Multicast cells -/

theorem mem_mcKeys {p : PortId} {c : GClass} {m : DidSet} {k : MarkerKey} (h : k ∈ mcKeys p c m) :
    DidSet.has m k.did = true := by
  obtain ⟨d, hd, rfl⟩ := List.mem_map.1 h
  exact (DidSet.mem_members m d).1 hd

theorem State.mcEndWithMarks_booked (s : State) (p : PortId) (c : GClass) : s.Booked ex (s.mcEndWithMarks p c) :=
  (s.makeMarks_booked fun _ hk => .ofSnapshot (p := p) (c := c) (mem_mcKeys hk)).trans
    (State.setMcTrain_idle_booked _ p c)

theorem State.mcRefuse_booked (s : State) (p : PortId) (c : GClass) (first last : Bool) (why : Drop) :
    s.Booked ex (s.mcRefuse p c first last why) := by
  have books := s.countPort_ledger p why
  unfold State.mcRefuse
  dsimp only
  refine (s.countPort_booked p why).trans ?_
  split_ifs
  · refine State.setMcTrain_booked _ p c fun d h => ?_
    rw [books]
    exact .ofSnapshot (p := p) (c := c) h
  · exact State.setMcTrain_idle_booked _ p c
  · exact State.mcEndWithMarks_booked _ p c

theorem State.mcDrop_booked (s : State) (p : PortId) (c : GClass) (last refused : Bool) :
    s.Booked ex (s.mcDrop p c last refused) := by
  unfold State.mcDrop
  split
  · dsimp only
    split_ifs
    · exact (s.countPort_booked p _).trans (State.mcEndWithMarks_booked _ p c)
    · exact s.countPort_booked p _
  · exact s.countPort_booked p _

/-- The references of a stored cell, appended one by one (R132). -/
theorem State.appendRefs_ledger (s : State) (c : GClass) (name : Nat) {ds : List Did} (apart : ds.Nodup) :
    (ds.foldl (fun u d => u.appendRef c name d) s).ledger = { s.ledger with
      queue := fun d c' => s.ledger.queue d c' ++ if d ∈ ds ∧ c' = c.cls then [.mref name] else [],
      refs := fun d g => s.ledger.refs d g + if d ∈ ds ∧ g = c then 1 else 0 } := by
  induction ds generalizing s with
  | nil => simp
  | cons e es ih =>
    rw [List.nodup_cons] at apart
    rw [List.foldl_cons, ih _ apart.2, State.appendRef, State.updRefs_ledger, State.enqueue_ledger]
    dsimp only
    ext : 1
    case queue =>
      funext d c'
      dsimp only
      rw [put_apply]
      by_cases hd : d = e
      · subst hd
        by_cases hc : c' = c.cls <;> simp [hc, apart.1]
      · simp [hd]
    case refs =>
      funext d g
      dsimp only
      rw [put_apply]
      by_cases hd : d = e
      · subst hd
        by_cases hg : g = c <;> simp [hg, apart.1]
      · simp [hd]
    all_goals rfl

theorem State.storeMulticast_booked (s : State) (c : GClass) {receivers : DidSet} (x : StoredCell)
    (live : ∀ d, DidSet.has receivers d = true → s.ledger.Live d) (any : receivers ≠ 0)
    (free : s.ledger.poolUse < s.ledger.poolSize) :
    s.Booked ex (s.storeMulticast c receivers x) := by
  have apart := DidSet.members_nodup receivers
  have books := State.appendRefs_ledger { s with
    mcCells := s.mcCells ++ [⟨s.mcNext, x, (DidSet.members receivers).length⟩], mcNext := s.mcNext + 1,
    poolUse := s.poolUse + 1 } c s.mcNext apart
  refine .entry (.cellStored c (DidSet.members receivers) x (fun d h => live d ((DidSet.mem_members _ d).1 h))
    (DidSet.members_ne_nil any) apart free) ?_
  have judged (u : State) : u.judgeHold.ledger = { u.ledger with
      mcHold := holdAfter u.ledger.mcHold (u.ledger.poolSize - u.ledger.poolUse) u.ledger.holdOn u.ledger.holdOff } := rfl
  unfold State.storeMulticast
  dsimp only
  rw [judged, books]
  rfl

theorem State.countPrunes_booked (s : State) (m : DidSet) : s.Booked ex (s.countPrunes m) ∧
    (s.countPrunes m).ledger = s.ledger := by
  have books : (s.countPrunes m).ledger = s.ledger := s.mapDids_unbooked fun d => by split_ifs <;> rfl
  exact ⟨.same books, books⟩

/-- Storing a cell keeps a DID live. -/
theorem State.storeMulticast_live (s : State) (c : GClass) (receivers : DidSet) (x : StoredCell) {d : Did}
    (h : s.ledger.Live d) : (s.storeMulticast c receivers x).ledger.Live d := by
  have books := State.appendRefs_ledger { s with
    mcCells := s.mcCells ++ [⟨s.mcNext, x, (DidSet.members receivers).length⟩], mcNext := s.mcNext + 1,
    poolUse := s.poolUse + 1 } c s.mcNext (DidSet.members_nodup receivers)
  have judged (u : State) : u.judgeHold.ledger.Live d ↔ u.ledger.Live d := Iff.rfl
  unfold State.storeMulticast
  dsimp only
  rw [judged, books]
  exact h

theorem State.cancelMarks_booked (s : State) (ks : List MarkerKey) : s.Booked ex (ks.foldl State.cancelMark s) :=
  .foldl State.cancelMark_booked s ks

theorem State.cancelMarks_live (s : State) (ks : List MarkerKey) (d : Did) :
    (ks.foldl State.cancelMark s).ledger.Live d ↔ s.ledger.Live d := by
  induction ks generalizing s with
  | nil => rfl
  | cons k ks ih => exact (ih _).trans Iff.rfl

theorem mcAfterAccept_has {last : Bool} {m : DidSet} {d : Did} (h : DidSet.has (mcAfterAccept last m).snapshot d = true) :
    DidSet.has m d = true := by
  unfold mcAfterAccept at h
  split_ifs at h
  · exact absurd ((DidSet.has_zero d).symm.trans h) nofun
  · exact h

theorem State.mcAcceptFirst_booked (s : State) (p : PortId) (c : GClass) (last : Bool) {stored : DidSet}
    (live : ∀ d, DidSet.has stored d = true → s.ledger.Live d) : s.Booked ex (s.mcAcceptFirst p c last stored) := by
  unfold State.mcAcceptFirst
  dsimp only
  refine (s.cancelMarks_booked _).trans ((State.makeMarks_booked _ fun k hk => ?_).trans
    (State.setMcTrain_booked _ p c fun d hd => ?_))
  · rw [State.cancelMarks_live]
    exact .ofSnapshot (p := p) (c := c) (DidSet.has_diff _ _ _ (mem_mcKeys hk))
  · rw [State.makeMarks_live, State.cancelMarks_live]
    exact live d (mcAfterAccept_has hd)

theorem State.mcAcceptLater_booked (s : State) (p : PortId) (c : GClass) (last : Bool) {gone : DidSet}
    (live : ∀ d, DidSet.has gone d = true → s.ledger.Live d) : s.Booked ex (s.mcAcceptLater p c last gone) := by
  unfold State.mcAcceptLater
  dsimp only
  refine (s.makeMarks_booked fun k hk => live _ (mem_mcKeys hk)).trans (State.setMcTrain_booked _ p c fun d hd => ?_)
  rw [State.makeMarks_live]
  exact .ofSnapshot (p := p) (c := c) (DidSet.has_diff _ _ _ (mcAfterAccept_has hd))

theorem State.unpruned_has {s : State} {c : GClass} {m : DidSet} {d : Did} (h : DidSet.has (s.unpruned c m) d = true) :
    DidSet.has m d = true := by
  unfold State.unpruned at h
  rw [DidSet.has_ofPred, Bool.and_eq_true] at h
  exact h.1

theorem State.pruned_has {s : State} {c : GClass} {m : DidSet} {d : Did} (h : DidSet.has (s.pruned c m) d = true) :
    DidSet.has m d = true := by
  unfold State.pruned at h
  rw [DidSet.has_ofPred, Bool.and_eq_true] at h
  exact h.1

theorem State.mcTake_booked (s : State) (p : PortId) (c : GClass) (x : StoredCell) {receivers : DidSet}
    (live : ∀ d, DidSet.has receivers d = true → s.ledger.Live d) : s.Booked ex (s.mcTake p c x receivers) := by
  unfold State.mcTake
  by_cases full : receivers ≠ 0 ∧ s.freeMulticast = 0
  · rw [if_pos full]
    exact s.mcRefuse_booked p c _ _ _
  · rw [if_neg full]
    dsimp only
    obtain ⟨counted, books⟩ := s.countPrunes_booked (ex := ex) (s.pruned c receivers)
    have left (d) (h : DidSet.has (s.unpruned c receivers) d = true) : s.ledger.Live d := live d (State.unpruned_has h)
    have gone (d) (h : DidSet.has (s.pruned c receivers) d = true) : s.ledger.Live d := live d (State.pruned_has h)
    have stored {u : State} (hu : s.Booked ex u) (hl : ∀ d, s.ledger.Live d → u.ledger.Live d) :
        s.Booked ex (if x.first then u.mcAcceptFirst p c x.last (s.unpruned c receivers)
          else u.mcAcceptLater p c x.last (s.pruned c receivers)) := by
      split_ifs
      · exact hu.trans (u.mcAcceptFirst_booked p c _ fun d h => hl d (left d h))
      · exact hu.trans (u.mcAcceptLater_booked p c _ fun d h => hl d (gone d h))
    by_cases none : s.unpruned c receivers = 0
    · rw [if_pos none]
      refine stored (counted.trans (State.countPort_booked _ p _)) fun d h => ?_
      rw [State.countPort_ledger, books]
      exact h
    · rw [if_neg none]
      refine stored (counted.trans (State.storeMulticast_booked _ c x (fun d h => ?_) none ?_)) fun d h => ?_
      · rw [books]
        exact left d h
      · have any : receivers ≠ 0 := by
          intro zero
          obtain ⟨d, hd⟩ := List.exists_mem_of_ne_nil _ (DidSet.members_ne_nil none)
          have member := State.unpruned_has ((DidSet.mem_members _ d).1 hd)
          rw [zero, DidSet.has_zero] at member
          cases member
        rw [books]
        exact Nat.lt_of_sub_ne_zero fun h => full ⟨any, h⟩
      · refine State.storeMulticast_live _ c _ x ?_
        rw [books]
        exact h

theorem State.eligible_reachable {s : State} {p : PortId} {g : Group} {d : Did}
    (h : DidSet.has (s.eligible p g) d = true) : s.ledger.Reachable d := by
  unfold State.eligible at h
  rw [DidSet.has_ofPred, Bool.and_eq_true, Bool.and_eq_true] at h
  exact (s.reachable_ledger d).1 h.1.2

theorem State.multicastArrival_booked (s : State) (p : PortId) (c : GClass) (h : IngressHeader) (payload : Payload)
    (good : Bool) : s.Booked ex (s.multicastArrival p c h payload good) := by
  unfold State.multicastArrival
  dsimp only
  split_ifs
  · exact s.mcRefuse_booked p c _ _ _
  · exact s.mcRefuse_booked p c _ _ _
  · exact s.mcTake_booked p c _ fun d hd => (State.eligible_reachable hd).live
  · exact s.mcRefuse_booked p c _ _ _
  · exact s.mcTake_booked p c _ fun d hd => .ofSnapshot (p := p) (c := c) hd
  · exact s.mcDrop_booked p c _ _

/-! ### Element cells and commands -/

theorem State.placeElement_booked (s : State) (p : PortId) (f : Frame) (room : s.elementUse < 32) :
    s.Booked ex (s.placeElement p f) := by
  have books := s.setElements_ledger p fun P => P.elements ++ [f]
  have placed : (s.placeElement p f).ledger =
      { (s.updPort p fun P => { P with elements := P.elements ++ [f] }).ledger with
        elementUse := s.elementUse + 1 } := rfl
  refine .entry (.elementPlaced p room) ?_
  rw [placed, books, List.length_append]
  rfl

theorem State.offerHeld_booked (s : State) : s.Booked ex s.offerHeld := by
  have unit (u : State) (x : CmdUnit) : u.Booked ex { u with cmdUnit := x } := .same rfl
  unfold State.offerHeld
  split
  · exact .refl s
  · split_ifs with down room
    · exact unit s _
    · exact (s.placeElement_booked _ _ room).trans (unit _ _)
    · exact .refl s

/-- Element cells leave their list, and the held response is offered again (R119, R125, R157, R159). -/
theorem State.freeElements_booked (s : State) (p : PortId) (l : Port → List Frame) (n : Nat)
    (h : (l (s.port p)).length + n = (s.port p).elements.length) :
    s.Booked ex ((s.updPort p fun P => { P with elements := l P }).freeElements n) := by
  have books := s.setElements_ledger p l
  have length : (l (s.port p)).length = s.ledger.elements p - n := by
    have : s.ledger.elements p = (s.port p).elements.length := rfl
    omega
  unfold State.freeElements
  split_ifs with zero
  · refine .same (books.trans ?_)
    rw [length, zero, Nat.sub_zero, Function.update_eq_self]
  · refine State.Booked.trans (t := { s.updPort p (fun P => { P with elements := l P }) with
      elementUse := s.elementUse - n }) (.entry (.elementsGone p n ?_) ?_) (State.offerHeld_booked _)
    · rw [show s.ledger.elements p = (s.port p).elements.length from rfl, ← h]
      exact Nat.le_add_left n _
    · change { (s.updPort p fun P => { P with elements := l P }).ledger with elementUse := s.elementUse - n } = _
      rw [books, length]
      rfl

theorem State.dropElements_booked (s : State) (p : PortId) : s.Booked ex (s.dropElements p) := by
  have dropped : s.Booked ex (s.dropHeld p) ∧ (s.dropHeld p).port p = s.port p := by
    unfold State.dropHeld
    split
    · split_ifs
      · exact ⟨.same rfl, rfl⟩
      · exact ⟨.refl s, rfl⟩
    · exact ⟨.refl s, rfl⟩
  unfold State.dropElements
  exact dropped.1.trans (State.freeElements_booked _ p (fun _ => []) _ (by rw [dropped.2]; simp))

theorem State.offerResponse_booked (s : State) (p : PortId) (f : Frame) : s.Booked ex (s.offerResponse p f) := by
  obtain ⟨-, e⟩ | ⟨-, room, e⟩ | ⟨-, -, e⟩ := s.offerResponse_cases p f <;> rw [e]
  · exact .refl s
  · exact s.placeElement_booked p f room
  · exact .same rfl

theorem State.offerNotices_booked (s : State) : s.Booked ex s.offerNotices := by
  refine .foldl (fun t p => ?_) s _
  obtain ⟨-, room, e⟩ | ⟨-, e⟩ := t.offerNotice_cases p (noticeFrame s.noticeWord s.moveDoneWord) <;> rw [e]
  · exact t.placeElement_booked p _ room
  · exact .refl t

theorem Port.judgeNotice_booked (P : Port) (c : BitVec 5) : (P.judgeNotice c).booked = P.booked := by
  unfold Port.judgeNotice
  split_ifs <;> rfl

theorem noticeStep_booked (s t : State) : t.Booked ex (noticeStep s t) := by
  have judged : t.Booked ex (t.mapPorts fun p P => P.judgeNotice (s.port p).conditions) :=
    .same (t.mapPorts_unbooked fun p => Port.judgeNotice_booked _ _)
  unfold noticeStep
  dsimp only
  split_ifs
  · exact judged.trans (State.offerNotices_booked _)
  · exact judged

theorem State.takeCommand_booked {s : State} {cmd : CmdCell} {rest : List CmdCell} (h : s.cmdQueue = cmd :: rest) :
    s.Booked ex (s.takeCommand cmd rest) := by
  refine .entry (.commandTaken cmd rest h) ?_
  change { (s.releaseCredit cmd.src).ledger with cmdQueue := rest } = _
  rw [s.releaseCredit_ledger]

theorem State.commandArrival_booked (s : State) (p : PortId) (h : IngressHeader) (payload : Payload) (good : Bool) :
    s.Booked ex (s.commandArrival p h payload good) := by
  unfold State.commandArrival
  split_ifs with bad credit full
  · exact (s.countPort_booked p _).trans (State.refundCredit_booked _ p)
  · exact s.countPort_booked p _
  · dsimp only
    split_ifs with room
    · exact (s.refundCredit_booked p).trans (State.placeElement_booked _ p _ room)
    · exact (s.refundCredit_booked p).trans (.same rfl)
  · rw [Bool.not_eq_true, Bool.not_eq_false'] at credit
    refine .entry (.commandQueued { src := p, first := h.first, last := h.last, frame := payloadFrame payload }
      ((s.creditOk_iff p).1 credit) (Nat.lt_of_not_le full)) ?_
    have queued (x : CmdCell) : ({ s.holdCredit p with cmdQueue := s.cmdQueue ++ [x] } : State).ledger =
        { (s.holdCredit p).ledger with cmdQueue := s.cmdQueue ++ [x] } := rfl
    rw [queued, s.holdCredit_ledger]
    rfl

theorem State.takeCell_booked (s : State) (p : PortId) (h : IngressHeader) (c : RawCell) :
    s.Booked ex (s.takeCell p h c) := by
  have counted : s.Booked ex (if h.carriesCell then s.countPort p .incCellsIn else s) := by
    split_ifs
    · exact s.countPort_booked p _
    · exact .refl s
  refine counted.trans ?_
  unfold State.takeCell
  dsimp only
  generalize (if h.carriesCell then s.countPort p .incCellsIn else s) = t
  cases h.classify with
  | fill => exact .refl t
  | badKind => exact t.countPort_booked p _
  | unicast g => exact t.unicastArrival_booked p _ h _ _
  | class0 => exact t.unicastArrival_booked p _ h _ _
  | multicast g => exact t.multicastArrival_booked p _ h _ _
  | command => exact t.commandArrival_booked p h _ _

end Sys2Proof.Machine
end

section
/-! PROOFS. The entries that departures and flushes make: queue entries, element cells, and what a header takes from the
outboxes. -/

namespace Sys2Proof.Machine

open Function (update)

variable {ex : Did → Prop}

/-! ### Entries at the head of a queue -/

theorem put_put {α β γ : Type} [DecidableEq α] [DecidableEq β] (f : α → β → γ) (a : α) (b : β) (x y : γ) :
    put (put f a b x) a b y = put f a b y := by
  funext a' b'
  rw [put_apply, put_apply, put_apply]
  split_ifs <;> rfl

theorem put_eq_self {α β γ : Type} [DecidableEq α] [DecidableEq β] (f : α → β → γ) (a : α) (b : β) : put f a b (f a b) = f := by
  funext a' b'
  rw [put_apply]
  split_ifs with h
  · rw [h.1, h.2]
  · rfl

/-- An append to any list of a table, and what stands in front of one of them. -/
theorem put_append_comm {α β γ : Type} [DecidableEq α] [DecidableEq β] (f : α → β → List γ) (a a' : α) (b b' : β)
    (front tail : List γ) : put (put f a' b' (f a' b' ++ tail)) a b (front ++ put f a' b' (f a' b' ++ tail) a b) =
      put (put f a b (front ++ f a b)) a' b' (put f a b (front ++ f a b) a' b' ++ tail) := by
  funext x y
  simp only [put_apply]
  by_cases h : x = a ∧ y = b <;> by_cases h' : x = a' ∧ y = b'
  · obtain ⟨⟨rfl, rfl⟩, rfl, rfl⟩ := And.intro h h'
    simp
  · have : ¬ (a = a' ∧ b = b') := fun e => h' ⟨h.1.trans e.1, h.2.trans e.2⟩
    rw [if_pos h, if_neg h', if_neg this]
    rw [if_pos h]
  · have : ¬ (a' = a ∧ b' = b) := fun e => h ⟨h'.1.trans e.1, h'.2.trans e.2⟩
    rw [if_neg h, if_pos h', if_pos h', if_neg this]
  · rw [if_neg h, if_neg h', if_neg h', if_neg h]

/-- The books with the entries `q` at the head of the queue (d, c). -/
def Ledger.push (b : Ledger) (d : Did) (c : Cls) (q : List QEntry) : Ledger :=
  { b with queue := put b.queue d c (q ++ b.queue d c) }

theorem Ledger.push_nil (b : Ledger) (d : Did) (c : Cls) : b.push d c [] = b := by
  unfold Ledger.push
  rw [List.nil_append, put_eq_self]

theorem Ledger.push_queue (b : Ledger) (d : Did) (c : Cls) (q : List QEntry) : (b.push d c q).queue d c = q ++ b.queue d c :=
  put_self _ _ _ _

/-- The reference counts after a reference left the queue (d, c) (R135). -/
def Ledger.refsWithout (b : Ledger) (d : Did) (c : Cls) (e : Did) (g : GClass) : Nat :=
  b.refs e g - if e = d ∧ g.cls = c then 1 else 0

/-- The books after a reference left the queue (d, c). -/
theorem State.dropRef_ledger (s : State) (d : Did) (c : Cls) :
    (match c.granted? with
      | some g => s.updRefs d g (· - 1)
      | none => s).ledger = { s.ledger with refs := s.ledger.refsWithout d c } := by
  cases h : c.granted? with
  | none =>
    have none (g : GClass) : g.cls ≠ c := fun e => by rw [← e, GClass.granted_cls] at h; cases h
    have same : s.ledger.refsWithout d c = s.ledger.refs := by
      funext e g
      unfold Ledger.refsWithout
      rw [if_neg fun x => none g x.2]
      rfl
    rw [same]
  | some g =>
    obtain rfl := (Cls.granted?_eq_some c g).1 h
    have written : s.ledger.refsWithout d g.cls = put s.ledger.refs d g (s.ledger.refs d g - 1) := by
      funext e x
      rw [put_apply]
      unfold Ledger.refsWithout
      by_cases he : e = d ∧ x = g
      · rw [if_pos ⟨he.1, congrArg _ he.2⟩, if_pos he, he.1, he.2]
      · rw [if_neg fun y => he ⟨y.1, GClass.cls_injective y.2⟩, if_neg he]
        rfl
    rw [written]
    exact s.updRefs_ledger d g _

/-- What the release of a reference does to the stored cells (R136, R137). -/
theorem State.releaseRef_cases (s : State) (n : Nat) :
    (s.mcCells.find? (fun x => decide (x.name = n)) = none ∧ (s.releaseRef n).ledger = s.ledger) ∨
    (∃ m, s.mcCells.find? (fun x => decide (x.name = n)) = some m ∧ m.fanOut ≤ 1 ∧
      (s.releaseRef n).ledger = { s.ledger with
        mcCells := s.mcCells.filter fun x => !decide (x.name = n), poolUse := s.poolUse - 1,
        mcHold := holdAfter s.mcHold (s.poolSize - (s.poolUse - 1)) s.holdOn s.holdOff }) ∨
    ∃ m, s.mcCells.find? (fun x => decide (x.name = n)) = some m ∧ 1 < m.fanOut ∧
      (s.releaseRef n).ledger = { s.ledger with
        mcCells := s.mcCells.map fun x => if x.name = n then { x with fanOut := x.fanOut - 1 } else x } := by
  unfold State.releaseRef State.mcCell
  cases found : s.mcCells.find? fun x => decide (x.name = n) with
  | none => exact .inl ⟨rfl, rfl⟩
  | some m =>
    dsimp only
    by_cases last : m.fanOut ≤ 1
    · rw [if_pos last]
      exact .inr (.inl ⟨m, rfl, last, rfl⟩)
    · rw [if_neg last]
      exact .inr (.inr ⟨m, rfl, Nat.lt_of_not_le last, rfl⟩)

/-! ### The release of an entry -/

theorem Ledger.Entry.congr {b c c' : Ledger} (e : Ledger.Entry ex b c) (h : c' = c) : Ledger.Entry ex b c' := h ▸ e

/-- The entry at the head of a queue is released: this is one entry of the books (R119, R124). -/
theorem State.releaseEntry_pushed (t : State) (d : Did) (c : Cls) (e : QEntry) (rest : List QEntry) :
    Ledger.Entry ex (t.ledger.push d c (e :: rest)) ((t.releaseEntry d c e).ledger.push d c rest) := by
  have head : (t.ledger.push d c (e :: rest)).queue d c = e :: (rest ++ t.ledger.queue d c) := t.ledger.push_queue d c _
  cases e with
  | cell x =>
    cases h : c.granted? with
    | none =>
      obtain rfl := (Cls.granted?_eq_none c).1 h
      have books : (t.releaseEntry d .c0 (.cell x)).ledger = t.ledger.release x.src := t.releaseCredit_ledger x.src
      refine .congr (.creditLeaves d x _ head) ?_
      rw [books]
      unfold Ledger.push
      dsimp only
      rw [put_put]
      rfl
    | some g =>
      obtain rfl := (Cls.granted?_eq_some c g).1 h
      refine .congr (.cellLeaves d g x _ head) ?_
      rw [t.releaseEntry_cell, t.updUsage_ledger]
      unfold Ledger.push
      dsimp only
      rw [put_put]
  | mref n =>
    have released : t.releaseEntry d c (.mref n) = (match c.granted? with
        | some g => t.updRefs d g (· - 1)
        | none => t).releaseRef n := by
      unfold State.releaseEntry
      cases c.granted? <;> rfl
    have books := t.dropRef_ledger d c
    rw [released]
    generalize (match c.granted? with
        | some g => t.updRefs d g (· - 1)
        | none => t) = u at books
    have cells : u.mcCells = t.ledger.mcCells := congrArg Ledger.mcCells books
    have use : u.poolUse = t.ledger.poolUse := congrArg Ledger.poolUse books
    have size : u.poolSize = t.ledger.poolSize := congrArg Ledger.poolSize books
    have on : u.holdOn = t.ledger.holdOn := congrArg Ledger.holdOn books
    have off : u.holdOff = t.ledger.holdOff := congrArg Ledger.holdOff books
    have hold : u.mcHold = t.ledger.mcHold := congrArg Ledger.mcHold books
    obtain ⟨found, result⟩ | ⟨m, found, last, result⟩ | ⟨m, found, more, result⟩ := u.releaseRef_cases n <;>
      rw [result, books] <;> rw [cells] at found
    · refine .congr (.refLost d c n _ head fun m hm hn => List.find?_eq_none.1 found m hm (decide_eq_true hn)) ?_
      unfold Ledger.push
      dsimp only
      rw [put_put]
      rfl
    · refine .congr (.refLast d c n _ m head found last) ?_
      rw [cells, use, size, on, off, hold]
      unfold Ledger.push
      dsimp only
      rw [put_put]
      rfl
    · refine .congr (.refLeaves d c n _ m head found more) ?_
      rw [cells]
      unfold Ledger.push
      dsimp only
      rw [put_put]
      rfl
  | mark src mc =>
    have released : t.releaseEntry d c (.mark src mc) = t.returnMark := by
      unfold State.releaseEntry
      cases c.granted? <;> rfl
    rw [released]
    obtain ⟨full, e⟩ | ⟨free, -, e⟩ | ⟨free, k, l, served, e⟩ := t.returnMark_cases <;> rw [e]
    · refine .congr (.markLeaves d c src mc _ t.owedMarkers head (.inr ⟨full, rfl⟩)) ?_
      unfold Ledger.push
      dsimp only
      rw [put_put]
      rfl
    · refine .congr (.markLeaves d c src mc _ [] head (.inl ⟨free, rfl⟩)) ?_
      unfold Ledger.push
      dsimp only
      rw [put_put]
      rfl
    · refine .congr (.markServes d c src mc _ k l head (served ▸ t.owedServable_sublist)
        (State.owedServable_head served) free) ?_
      rw [State.placeMark_ledger]
      unfold Ledger.push
      dsimp only
      rw [put_put, put_append_comm]
      rfl

theorem State.releaseEntries_pushed (d : Did) (c : Cls) (q : List QEntry) (t : State) :
    Relation.ReflTransGen (Ledger.Entry ex) (t.ledger.push d c q) (q.foldl (fun t e => t.releaseEntry d c e) t).ledger := by
  induction q generalizing t with
  | nil =>
    rw [Ledger.push_nil]
    exact .refl
  | cons e q ih => exact .head (t.releaseEntry_pushed d c e q) (ih _)

theorem State.setQueue_push (s : State) (d : Did) (c : Cls) (front rest : List QEntry) (h : s.queue d c = front ++ rest) :
    (s.setQueue d c rest).ledger.push d c front = s.ledger := by
  unfold Ledger.push
  rw [State.setQueue_ledger]
  dsimp only
  rw [put_self, put_put, ← h]
  exact congrArg (fun q => { s.ledger with queue := q }) (put_eq_self s.ledger.queue d c)

/-- The entry at the head of a queue departs (R119). -/
theorem State.departEntry_booked {s : State} {d : Did} {c : Cls} {e : QEntry} {rest : List QEntry}
    (h : s.queue d c = e :: rest) : s.Booked ex ((s.setQueue d c rest).releaseEntry d c e) := by
  have released := State.releaseEntries_pushed (ex := ex) d c [e] (s.setQueue d c rest)
  rwa [s.setQueue_push d c [e] rest h] at released

theorem State.flushQueue_booked (s : State) (d : Did) (c : Cls) : s.Booked ex (s.flushQueue d c) := by
  have released := State.releaseEntries_pushed (ex := ex) d c (s.queue d c) (s.setQueue d c [])
  rwa [s.setQueue_push d c _ [] (List.append_nil _).symm] at released

theorem State.flushDid_booked (s : State) (d : Did) (k : Nat → DidCounters → DidCounters) :
    s.Booked ex (s.flushDid d k) :=
  (State.Booked.foldl (f := fun t c => t.flushQueue d c) (fun t c => t.flushQueue_booked d c) s Cls.all).trans
    (State.countDid_booked _ d _)

/-! ### The departure of a choice -/

theorem State.depart_booked (s : State) (p : PortId) (ch : Choice) : s.Booked ex (s.depart p ch).2 := by
  unfold State.depart
  split
  · split
    · exact .refl s
    · next h => exact (State.departEntry_booked h).trans (State.countPort_booked _ p _)
  · split
    · exact .refl s
    · next f rest h =>
      exact (s.freeElements_booked p (fun _ => rest) 1 (by rw [h, List.length_cons])).trans (State.countPort_booked _ p _)

end Sys2Proof.Machine
end

section
/-! PROOFS. The entries that cutovers, forced moves and the end of an event make (R89, R106, R140, R148 to R150). -/

namespace Sys2Proof.Machine

open Function (update)

variable {ex : Did → Prop}

/-! ### Trains and snapshots of a DID -/

theorem State.mapTrainsOf_train (s : State) (d : Did) (f : TrainState → TrainState) (q : PortId) (e : Did) (c : Cls) :
    (s.mapTrainsOf d f).train q e c = if e = d then f (s.train q e c) else s.train q e c := by
  unfold State.mapTrainsOf State.train
  rw [State.mapPorts_port]
  unfold Port.train
  by_cases he : e = d
  · subst he
    simp
  · have : d.val ≠ e.val := fun x => he (Fin.ext x.symm)
    simp [he, this]

/-- A map of trains that starts none, with the snapshots as they are. -/
theorem State.mapTrainsOf_booked (s : State) (d : Did) {f : TrainState → TrainState} (h : f .idle = .idle) :
    s.Booked ex (s.mapTrainsOf d f) := by
  refine State.Keeps.booked (.mapPorts _ _ fun _ _ => rfl) (fun q e c ht => ?_) fun q c e hs => ?_
  · rw [State.mapTrainsOf_train] at ht
    refine .ofTrain (p := q) (c := c) fun idle : s.train q e c = .idle => ht ?_
    rw [idle, h, ite_self]
  · have kept : (s.mapTrainsOf d f).mcTrain q c = s.mcTrain q c := by
      unfold State.mapTrainsOf State.mcTrain
      rw [State.mapPorts_port]
    rw [kept] at hs
    exact .ofSnapshot (p := q) (c := c) hs

theorem State.mcForget_train (s : State) (d : Did) (q : PortId) (e : Did) (c : Cls) :
    (s.mcForget d).train q e c = s.train q e c := by
  unfold State.mcForget State.train
  rw [State.mapPorts_port]
  rfl

theorem State.mcForget_booked (s : State) (d : Did) : s.Booked ex (s.mcForget d) := by
  refine (s.mcForget_keepsTrains d).booked (fun q e c ht => ?_) fun q c e hs => ?_
  · rw [State.mcForget_train] at ht
    exact .ofTrain ht
  · rw [State.mcForget_mcTrain, DidSet.has_without, Bool.and_eq_true] at hs
    exact .ofSnapshot hs.1

/-! ### Cutovers -/

theorem State.setMap_booked (s : State) {d : Did} (m : DidMap) (moved : ex d) : s.Booked ex (s.setMap d m) :=
  .entry (.remapped d m.port? moved) (s.setMap_ledger d m)

theorem State.completeMove_booked (s : State) (d : Did) (r : MoveResult) : s.Booked ex (s.completeMove d r) :=
  .same (s.updDid_unbooked d rfl)

/-- The bids of a DID that its entry leaves without a reachable port are gone (R89). -/
theorem State.rejudgeBids_bids (s : State) {d : Did} (down : s.reachable d = false) (c : GClass) :
    (s.rejudgeBids d).bids d c = [] := by
  have removed (why : Reason) : (GClass.all.foldl (fun t g => t.removeBids d g why) s).bids d c = [] := by
    unfold GClass.all
    simp only [List.foldl_cons, List.foldl_nil, State.removeBids_bids, true_and]
    cases c <;> rfl
  unfold State.reachable at down
  unfold State.rejudgeBids
  split
  · exact removed _
  · next p hp =>
    rw [hp] at down
    dsimp only at down
    rw [if_neg (by rw [down]; decide)]
    exact removed _

/-- DID `d` has no queue entry, no record and no owed marker: what a cutover finds (R147). -/
structure State.Vacant (s : State) (d : Did) : Prop where
  queue : ∀ c, s.queue d c = []
  grant : ∀ p c, s.grant p d c = none
  owed : ∀ k ∈ s.owedMarkers, k.did ≠ d

theorem State.Keeps.vacant {V : View} {s t : State} (h : s.Keeps V t) (queues : ∀ D : DidState, (V.did D).queues = D.queues)
    (grants : ∀ P : Port, (V.port P).grants = P.grants) (owed : ∀ x : State, (V.rest x.bare).owedMarkers = x.owedMarkers)
    {d : Did} (v : s.Vacant d) : t.Vacant d where
  queue c := (h.didField (fun D => D.queues.get c) (fun D => by rw [queues]) d).trans (v.queue c)
  grant p c := (h.portField (fun P => P.grant d c) (fun P => by unfold Port.grant; rw [grants]) p).trans (v.grant p c)
  owed := by rw [h.restField State.owedMarkers owed]; exact v.owed

/-- A DID without a reachable port is bare after its bids are judged and its trains are gone (R89, R106, R140). -/
theorem State.Vacant.bare {s : State} {d : Did} (v : s.Vacant d) (down : s.reachable d = false) :
    (((s.rejudgeBids d).idleTrainsOf d).mcForget d).ledger.Bare d := by
  have trains := (State.idleTrainsOf_keepsTrains (s.rejudgeBids d) d).trans (State.mcForget_keepsTrains _ d)
  have judged := (s.rejudgeBids_keepsRefusals d).vacant (fun _ => rfl) (fun _ => rfl) (fun _ => rfl) v
  have vacant := trains.vacant (fun _ => rfl) (fun _ => rfl) (fun _ => rfl) judged
  have bids (c : GClass) : (((s.rejudgeBids d).idleTrainsOf d).mcForget d).bids d c = [] :=
    (trains.didField (fun D => D.bids.get c) (fun _ => rfl) d).trans (s.rejudgeBids_bids down c)
  have train (p : PortId) (c : Cls) : (((s.rejudgeBids d).idleTrainsOf d).mcForget d).train p d c = .idle := by
    rw [State.mcForget_train, State.idleTrainsOf_train, if_pos rfl]
  have snapshot (p : PortId) (c : GClass) :
      DidSet.has ((((s.rejudgeBids d).idleTrainsOf d).mcForget d).mcTrain p c).snapshot d = false := by
    rw [State.mcForget_mcTrain, DidSet.has_without, decide_eq_true rfl, Bool.not_true, Bool.and_false]
  generalize ((s.rejudgeBids d).idleTrainsOf d).mcForget d = w at vacant bids train snapshot
  exact ⟨vacant.queue, bids, vacant.owed, vacant.grant, train, snapshot⟩

theorem State.afterCutover_bare {s : State} {d : Did} (v : s.Vacant d) (down : s.reachable d = false) :
    (s.afterCutover d).ledger.Bare d := by
  have judged : (s.rejudgeBids d).reachable d = false :=
    ((s.rejudgeBids_keepsRefusals d).reachable (fun _ => rfl) (fun _ => rfl) d).trans down
  have after : s.afterCutover d = ((s.rejudgeBids d).idleTrainsOf d).mcForget d := by
    unfold State.afterCutover
    dsimp only
    rw [judged]
    rfl
  rw [after]
  exact v.bare down

theorem State.afterCutover_booked {s : State} {d : Did} (v : s.Vacant d) : s.Booked ex (s.afterCutover d) := by
  have judged := s.rejudgeBids_booked (ex := ex) v.grant
  unfold State.afterCutover
  dsimp only
  split_ifs
  · exact judged
  · exact judged.trans ((State.mapTrainsOf_booked _ d rfl).trans (State.mcForget_booked _ d))

theorem State.afterCutover_reachable (s : State) (d e : Did) : (s.afterCutover d).reachable e = s.reachable e := by
  have judged := (s.rejudgeBids_keepsRefusals d).reachable (fun _ => rfl) (fun _ => rfl) e
  unfold State.afterCutover
  dsimp only
  split_ifs
  · exact judged
  · exact (((State.idleTrainsOf_keepsTrains _ d).trans (State.mcForget_keepsTrains _ d)).reachable (fun _ => rfl)
      (fun _ => rfl) e).trans judged

/-- A DID that holds nothing cuts over (R149, R150). -/
theorem State.cutover_event {s : State} {d : Did} (v : s.Vacant d) (target : PortId) (r : MoveResult) :
    s.Event (s.cutover d target r) := by
  have moved : s.Keeps .event ((s.setMap d (.mapped target)).completeMove d r) :=
    (show s.Keeps .event (s.setMap d (.mapped target)) from .updDid _ _ _ fun _ => rfl).trans (.updDid _ _ _ fun _ => rfl)
  have vacant := moved.vacant (fun _ => rfl) (fun _ => rfl) (fun _ => rfl) v
  refine ⟨(· = d), (State.setMap_booked (ex := (· = d)) s _ rfl).trans ((State.completeMove_booked _ d r).trans (State.afterCutover_booked vacant)),
    ?_⟩
  rintro _ rfl down
  refine State.afterCutover_bare vacant (Bool.eq_false_iff.2 fun up => down ?_)
  rw [← State.reachable_ledger]
  exact ((State.afterCutover_reachable _ _ _).trans up)

/-! ### The end of an event -/

/-- The four parts of DID `d` are empty (R147). -/
structure Ledger.Drained (b : Ledger) (d : Did) : Prop where
  queue : ∀ c, b.queue d c = []
  grant : ∀ p c, b.grant p (d, c) = none
  outbox : ∀ p, ∀ x ∈ b.outbox p, x.did ≠ d
  owed : ∀ k ∈ b.owedMarkers, k.did ≠ d

theorem State.hasQueued_iff (s : State) (d : Did) : s.hasQueued d = false ↔ ∀ c, s.queue d c = [] := by
  unfold State.hasQueued DidState.queued State.queue
  rw [decide_eq_false_iff_not, not_not]
  constructor
  · intro none c
    refine List.length_eq_zero_iff.1 ?_
    cases c <;> simp only [PerClass.get] <;> omega
  · intro none
    have c0 := none .c0
    have c1 := none .c1
    have c2 := none .c2
    have c3 := none .c3
    simp only [PerClass.get] at c0 c1 c2 c3
    rw [c0, c1, c2, c3]
    rfl

theorem State.drained_iff (s : State) (d : Did) : s.drained d = true ↔ s.ledger.Drained d := by
  have grants : s.hasGrant d = false ↔ ∀ p c, s.grant p d c = none := by
    unfold State.hasGrant
    simp only [List.any_eq_false, Bool.not_eq_true, Option.isSome_eq_false_iff, Option.isNone_iff_eq_none]
    exact ⟨fun h p c => h p (mem_allPorts p) c (mem_classes c), fun h p _ c _ => h p c⟩
  have boxes : s.hasOutbox d = false ↔ ∀ p, ∀ x ∈ (s.port p).grantOutbox, x.did ≠ d := by
    unfold State.hasOutbox
    simp only [List.any_eq_false, Bool.not_eq_true, decide_eq_false_iff_not]
    exact ⟨fun h p => h p (mem_allPorts p), fun h p _ => h p⟩
  have owed : s.hasOwed d = false ↔ ∀ k ∈ s.owedMarkers, k.did ≠ d := by
    unfold State.hasOwed
    simp only [List.any_eq_false, decide_eq_true_eq, ne_eq]
  unfold State.drained
  simp only [Bool.and_eq_true, Bool.not_eq_true', s.hasQueued_iff, grants, boxes, owed]
  exact ⟨fun ⟨⟨⟨queue, grant⟩, outbox⟩, owed⟩ => ⟨queue, grant, outbox, owed⟩,
    fun h => ⟨⟨⟨h.queue, h.grant⟩, h.outbox⟩, h.owed⟩⟩

theorem State.drained_vacant {s : State} {d : Did} (h : s.drained d = true) : s.Vacant d :=
  have drained := (s.drained_iff d).1 h
  ⟨drained.queue, drained.grant, drained.owed⟩

theorem State.judgeDrain_runs (s : State) (d : Did) : s.Runs (s.judgeDrain d) := by
  obtain ⟨_, target, _, _, -, drained, e⟩ | ⟨-, e⟩ := s.judgeDrain_cases d <;> rw [e]
  · exact (State.cutover_event (State.drained_vacant drained) target _).runs
  · exact (State.Booked.refl s).runs

theorem State.drainStep_runs (s t : State) : t.Runs (s.drainStep t) := by
  unfold State.drainStep
  generalize (allDids.filter fun d => (t.did d).map.isMoving && !s.drained d) = ds
  induction ds generalizing t with
  | nil => exact (State.Booked.refl t).runs
  | cons d ds ih => exact (t.judgeDrain_runs d).trans (ih _)

/-- An event comes to its end: drained DIDs cut over, and notices are offered (R148, R177). -/
theorem eventEnd_runs (s t : State) : t.Runs (eventEnd s t) :=
  (s.drainStep_runs t).trans (noticeStep_booked s _).runs

theorem State.Booked.ends {s t : State} (before : State) (h : s.Booked (fun _ => False) t) : s.Runs (eventEnd before t) :=
  h.runs.trans (eventEnd_runs before t)

/-! ### The forced move -/

theorem State.revokeClass_grant_none (s : State) (d : Did) (c : GClass) {x : PortId} {e : Did} {g : GClass}
    (h : s.grant x e g = none) : (s.revokeClass d c).grant x e g = none := by
  unfold State.revokeClass
  generalize allPorts = ps
  induction ps generalizing s with
  | nil => exact h
  | cons p ps ih => exact ih _ (by rw [State.revokeOne_grant, h, ite_self])

/-- No record of a DID is open after its grants were revoked (R86). -/
theorem State.revoke_grant (s : State) (d : Did) (p : PortId) (c : GClass) : (s.revoke d).grant p d c = none :=
  foldl_reaches (φ := fun t => t.grant p d c = none) (x := c) (fun t => t.revokeClass_grant d c p)
    (fun t g h => t.revokeClass_grant_none d g h) (mem_classes c) s

theorem State.revoke_keeps (s : State) (d : Did) : s.Keeps .grants (s.revoke d) :=
  .foldl (fun t c => t.revokeClass_keeps d c) _ _

theorem State.countDid_vacant {s : State} {d : Did} (v : s.Vacant d) (f : DidCounters → DidCounters) :
    (s.countDid d f).Vacant d :=
  ⟨fun c => (congrArg (fun b : Ledger => b.queue d c) (s.countDid_ledger d f)).trans (v.queue c), v.grant, v.owed⟩

/-- A DID without a record and without an owed marker is vacant when its queues are flushed (R150). -/
theorem State.flushDid_vacant {s : State} {d : Did} (k : Nat → DidCounters → DidCounters)
    (grant : ∀ p c, s.grant p d c = none) (owed : ∀ x ∈ s.owedMarkers, x.did ≠ d) : (s.flushDid d k).Vacant d := by
  have avoids : s.Avoids [d] := fun x hx => by rw [List.mem_singleton]; exact owed x hx
  obtain ⟨flushes, queues⟩ := State.flushClasses avoids (List.mem_singleton_self d) (cs := Cls.all) (by decide)
  have flushed : (Cls.all.foldl (fun t c => t.flushQueue d c) s).Vacant d := by
    refine ⟨fun c => ?_, fun p c => ?_, fun x hx => ?_⟩
    · rw [queues d (List.mem_singleton_self d), if_pos ⟨rfl, mem_allClasses c⟩]
    · rw [← grant p c]
      exact (State.Keeps.foldl (fun t c => t.flushQueue_keeps d c) s Cls.all).portField (fun P => P.grant d c) (fun _ => rfl) p
    · have := flushes.avoids avoids x hx
      rwa [List.mem_singleton] at this
  exact State.countDid_vacant flushed _

theorem State.forceMove_runs (s : State) (d : Did) : s.Runs (s.forceMove d) := by
  unfold State.forceMove
  split
  · next target deadline _ _ =>
    dsimp only
    generalize hu : ({ s with now := max s.now deadline } : State) = u
    have clock : s.Booked (fun _ => False) u := .same (by rw [← hu]; rfl)
    have revoked : (u.discardMarksOf d).Keeps .grants (((u.discardMarksOf d).revoke d).breakTrainsOf d |>.mcForget d) :=
      ((State.revoke_keeps _ d).trans ((State.mapTrainsOf_keeps _ d _).grants_of_event)).trans
        (State.mcForget_keeps _ d).grants_of_event
    have vacant : ((((u.discardMarksOf d).revoke d).breakTrainsOf d |>.mcForget d).flushDid d .addMoveFlush).Vacant d := by
      refine State.flushDid_vacant _ (fun p c => ?_) fun x hx => ?_
      · exact ((State.mapTrainsOf_keeps _ d _).trans (State.mcForget_keeps _ d)).portField (fun P => P.grant d c)
          (fun _ => rfl) p |>.trans (State.revoke_grant _ d p c)
      · rw [revoked.restField State.owedMarkers fun _ => rfl] at hx
        simpa using (List.mem_filter.1 hx).2
    refine State.Runs.trans (State.Booked.runs ?_) (State.cutover_event vacant target _).runs
    exact clock.trans ((State.discardMarksOf_booked _ d).trans ((State.revoke_booked _ d).trans
      ((State.mapTrainsOf_booked _ d rfl).trans ((State.mcForget_booked _ d).trans (State.flushDid_booked _ d _)))))
  · exact (State.Booked.refl s).runs

end Sys2Proof.Machine
end

section
/-! PROOFS. The ranges of the round state, the stuck-line monitor and the pattern unit, operation by operation (R31, R112 to
R118, R183 to R189). -/

namespace Sys2Proof.Machine

/-! ### The round state -/

/-- A slot opens: a wrap takes the stored pattern, and the position moves on (R113, R114). -/
theorem Round.advance_inRange {r : Round} {stored : List Bool} (h : r.InRange) (least : 1 ≤ stored.length)
    (top : stored.length ≤ 16) : (r.opened stored).advance.InRange := by
  obtain ⟨pattern1, pattern16, position, wrapped, single, pointers, c0⟩ := h
  unfold Round.opened Round.advance
  cases hw : r.wraps with
  | true =>
    have zero := wrapped hw
    simp only [if_true]
    split_ifs with last
    · exact ⟨least, top, least, fun _ => rfl, fun _ => rfl, pointers, c0⟩
    · refine ⟨least, top, by dsimp only; omega, nofun, fun one => ?_, pointers, c0⟩
      dsimp only at one
      omega
  | false =>
    simp only [Bool.false_eq_true, if_false]
    split_ifs with last
    · exact ⟨pattern1, pattern16, pattern1, fun _ => rfl, fun _ => rfl, pointers, c0⟩
    · refine ⟨pattern1, pattern16, by dsimp only; omega, fun w => ?_, fun one => ?_, pointers, c0⟩
      · rw [hw] at w
        cases w
      · exact single one

/-- The round state of a port-up (R112). -/
theorem Round.start_inRange {stored : List Bool} {classes : PerG ClassSettings} (least : 1 ≤ stored.length)
    (top : stored.length ≤ 16) (weights : ∀ c, (classes.get c).weight ≤ 15) : (Round.start stored classes).InRange := by
  refine ⟨least, top, least, fun _ => rfl, fun one => decide_eq_true one, fun c => ⟨?_, ?_⟩, Nat.zero_le _⟩
  · rw [show (Round.start stored classes).budget = classes.map fun _ k => k.weight from rfl, PerG.get_map]
    exact weights c
  · cases c <;> exact Nat.zero_le _

/-- The budgets of a class chosen stay within the weights (R116). -/
theorem State.pickClass_budget {s : State} {p : PortId} {c : GClass} {b : PerG Nat} (h : s.pickClass p = some (c, b))
    (weights : ∀ c, (s.classes.get c).weight ≤ 15) (budget : ∀ c, (s.port p).round.budget.get c ≤ 15) (g : GClass) :
    b.get g ≤ 15 := by
  have lowered (t : PerG Nat) (x : GClass) (ht : ∀ g, t.get g ≤ 15) : (t.set x (t.get x - 1)).get g ≤ 15 := by
    rw [PerG.get_set, Function.update_apply]
    split_ifs
    · exact (Nat.sub_le _ _).trans (ht x)
    · exact ht g
  unfold State.pickClass at h
  dsimp only at h
  split at h
  · cases h
    exact lowered _ _ budget
  · split at h
    · cases h
      exact lowered _ _ fun g => by rw [PerG.get_map]; exact weights g
    · cases h

/-- A selection keeps the round state in its ranges (R115 to R118). -/
theorem State.select_inRange {s : State} {p : PortId} (h : (s.port p).round.InRange)
    (weights : ∀ c, (s.classes.get c).weight ≤ 15) : (s.select p).2.InRange := by
  obtain ⟨pattern1, pattern16, position, wrapped, single, pointers, c0⟩ := h
  have budget (c : GClass) := (pointers c).1
  unfold State.select
  dsimp only
  split
  · next i _ =>
    exact ⟨pattern1, pattern16, position, wrapped, single, pointers, Nat.le_of_lt_succ (Nat.mod_lt _ (by decide))⟩
  · split
    · exact ⟨pattern1, pattern16, position, wrapped, single, pointers, c0⟩
    · next c b chosen =>
      have spent := State.pickClass_budget chosen weights budget
      split
      · exact ⟨pattern1, pattern16, position, wrapped, single, fun g => ⟨spent g, (pointers g).2⟩, c0⟩
      · next d _ =>
        refine ⟨pattern1, pattern16, position, wrapped, single, fun g => ⟨spent g, ?_⟩, c0⟩
        dsimp only
        rw [PerG.get_set, Function.update_apply]
        split_ifs
        · exact Nat.le_of_lt_succ (Nat.mod_lt _ (by decide))
        · exact (pointers g).2

/-! ### The stuck-line monitor -/

theorem StuckMonitor.endBlock_inRange (k : Nat) (m : StuckMonitor) : (m.endBlock k).InRange := by
  refine ⟨Nat.zero_lt_succ _, fun off => ?_⟩
  unfold StuckMonitor.endBlock at off ⊢
  dsimp only at off ⊢
  rw [off]
  rfl

theorem StuckMonitor.takeBit_inRange {m : StuckMonitor} (n k : Nat) (b : Bool) (h : m.InRange) :
    (m.takeBit n k b).InRange := by
  obtain ⟨-, clean⟩ := h
  unfold StuckMonitor.takeBit
  refine iteInduction (motive := StuckMonitor.InRange) (fun _ => StuckMonitor.endBlock_inRange k _) fun more =>
    ⟨Nat.lt_of_not_le more, fun off => ?_⟩
  obtain ⟨off, unreached⟩ := Bool.or_eq_false_iff.1 off
  dsimp only
  rw [unreached]
  exact clean off

/-! ### The generator -/

theorem PatternUnit.genBit_inRange {u : PatternUnit} (h : u.InRange) : u.genBit.2.InRange := by
  obtain ⟨-, rest⟩ := h
  exact ⟨Nat.mod_lt _ (by decide), rest⟩

/-- The generator writes its register and its position alone. -/
structure PatternUnit.Generates (u v : PatternUnit) : Prop where
  range : u.InRange → v.InRange
  running : v.running = u.running
  sync : v.sync = u.sync
  matchRun : v.matchRun = u.matchRun

theorem PatternUnit.genBits_generates (n : Nat) (u : PatternUnit) : u.Generates (PatternUnit.genBits n u).2 := by
  induction n generalizing u with
  | zero => exact ⟨id, rfl, rfl, rfl⟩
  | succ n ih =>
    have rest := ih u.genBit.2
    exact ⟨fun h => rest.range (PatternUnit.genBit_inRange h), rest.running, rest.sync, rest.matchRun⟩

theorem PatternUnit.begin_inRange {u : PatternUnit} (h : u.InRange) : u.begin.InRange := by
  obtain ⟨g, c, bits, errors, run, masked, sync, rest⟩ := h
  exact ⟨g, c, bits, errors, run, masked, fun x => ⟨rfl, (sync x).2⟩, rest⟩

theorem PatternUnit.start_inRange (t : TestSettings) : (PatternUnit.start t).InRange := by
  refine ⟨Nat.zero_lt_succ _, Nat.zero_lt_succ _, Nat.zero_lt_succ _, Nat.le_refl _, Nat.zero_le _, nofun, nofun,
    fun _ => rfl, fun _ _ _ _ => Nat.zero_le _,
    fun period h => ?_, fun _ => ⟨rfl, rfl, rfl⟩, fun _ => rfl⟩
  simp only [List.mem_cons, Prod.mk.injEq, List.not_mem_nil, or_false] at h
  obtain ⟨-, rfl⟩ | ⟨-, rfl⟩ | ⟨-, rfl⟩ := h <;> exact Nat.two_pow_pos _

theorem PatternUnit.stop_inRange {u : PatternUnit} (h : u.InRange) : u.stop.InRange := by
  obtain ⟨g, c, bits, errors, -, -, -, -, seeded, progress, off, result⟩ := h
  exact ⟨g, c, bits, errors, Nat.zero_le _, nofun, nofun, fun _ => rfl, seeded, progress,
    fun x => ⟨rfl, (off x).2⟩, result⟩

/-! ### The checker -/

/-- What a checker that takes bits keeps: its ranges, with fewer than 64 matches in a search (R185 to R187). -/
structure PatternUnit.Checks (u : PatternUnit) : Prop where
  on : u.settings.chkPattern ≠ .off
  running : u.running = true
  genPos : u.genPos < 64
  chkPos : u.chkPos < 64
  blockBits : u.blockBits < 128
  blockErrors : u.blockErrors ≤ u.blockBits
  badRun : u.badRun ≤ 4
  masked : u.badRun = 4 → u.settings.syncMask = true ∧ u.syncEver = true
  ever : u.sync = .inSync → u.syncEver = true
  fresh : u.sync = .searching → u.badRun = 0
  seeded : u.seeded ≤ u.settings.chkPattern.seedLength ∨ u.settings.chkPattern = .user
  progress : ∀ period, u.settings.timebase.period = some period → u.progress < period
  result : u.settings.timebase = .continuous → u.lastResult = 0
  matches_ : u.sync = .searching → u.matchRun < 64

theorem PatternUnit.Checks.inRange {u : PatternUnit} (h : u.Checks) : u.InRange := by
  refine ⟨h.genPos, h.chkPos, h.blockBits, h.blockErrors, h.badRun, h.masked, fun x => ⟨h.running, h.ever x⟩, h.fresh,
    fun k length hk e => ?_, fun period hp => h.progress period ?_, fun off => absurd off h.on, h.result⟩
  · obtain le | user := h.seeded
    · simp only [List.mem_cons, Prod.mk.injEq, List.not_mem_nil, or_false] at hk
      rw [e] at le
      obtain ⟨rfl, rfl⟩ | ⟨rfl, rfl⟩ | ⟨rfl, rfl⟩ := hk <;> exact le
    · rw [← e, user] at hk
      simp at hk
  · simp only [List.mem_cons, Prod.mk.injEq, List.not_mem_nil, or_false] at hp
    obtain ⟨e, rfl⟩ | ⟨e, rfl⟩ | ⟨e, rfl⟩ := hp <;> rw [e] <;> rfl

theorem PatternUnit.InRange.checks {u : PatternUnit} (h : u.InRange) (on : u.settings.chkPattern ≠ .off)
    (running : u.running = true) (few : u.sync = .searching → u.matchRun < 64) : u.Checks := by
  obtain ⟨g, c, bits, errors, run, masked, sync, fresh, seeded, progress, -, result⟩ := h
  refine ⟨on, running, g, c, bits, errors, run, masked, fun x => (sync x).2, fresh, ?_, fun period hp => progress period ?_,
    result, few⟩
  · cases hk : u.settings.chkPattern
    · exact absurd hk on
    · exact .inl (seeded .p7 7 (by simp) hk)
    · exact .inl (seeded .p23 23 (by simp) hk)
    · exact .inl (seeded .p31 31 (by simp) hk)
    · exact .inr rfl
  · cases ht : u.settings.timebase <;> rw [ht] at hp <;> cases hp <;> simp

theorem PatternUnit.Checks.advance {u : PatternUnit} (h : u.Checks) : u.advance.Checks := by
  unfold PatternUnit.advance
  split
  · next none => exact { h with progress := fun period hp => by cases none.symm.trans hp }
  · next t some =>
    have positive : 0 < t := Nat.zero_lt_of_lt (h.progress t some)
    refine iteInduction (motive := PatternUnit.Checks) (fun _ => ?_) fun more => ?_
    · exact { h with
        progress := fun period hp => by cases some.symm.trans hp; exact positive
        result := fun c => by rw [c] at some; cases some }
    · exact { h with progress := fun period hp => by cases some.symm.trans hp; exact Nat.lt_of_not_le more }

theorem PatternUnit.Checks.enterSync {u : PatternUnit} (h : u.Checks) (n : Nat) :
    PatternUnit.Checks { u with matchRun := n }.enterSync :=
  { h with
    blockBits := Nat.zero_lt_succ _, blockErrors := Nat.le_refl _, badRun := Nat.zero_le _, masked := nofun
    ever := fun _ => rfl, fresh := nofun, matches_ := nofun }

theorem PatternUnit.Checks.loseSync {u : PatternUnit} (h : u.Checks) (run bits errors : Nat) :
    PatternUnit.Checks { u with badRun := run, blockBits := bits, blockErrors := errors }.loseSync :=
  { h with
    chkPos := Nat.zero_lt_succ _, blockBits := Nat.zero_lt_succ _, blockErrors := Nat.le_refl _
    badRun := Nat.zero_le _, masked := nofun, ever := nofun, fresh := fun _ => rfl
    seeded := h.seeded.imp_left fun _ => Nat.zero_le _, matches_ := fun _ => Nat.zero_lt_succ _ }

theorem PatternUnit.Checks.searchMatch {u : PatternUnit} (h : u.Checks) : u.searchMatch.Checks := by
  unfold PatternUnit.searchMatch
  exact iteInduction (motive := PatternUnit.Checks) (fun _ => h.enterSync _) fun more =>
    { h with matches_ := fun _ => Nat.lt_of_not_le more }

theorem PatternUnit.Checks.searchBit {u : PatternUnit} (h : u.Checks) (b : Bool) : (u.searchBit b).Checks := by
  have lost : ∀ _ : u.sync = .searching, 0 < 64 := fun _ => Nat.zero_lt_succ _
  unfold PatternUnit.searchBit
  dsimp only
  split
  · refine iteInduction (motive := PatternUnit.Checks) (fun _ => ?_) fun _ => { h with matches_ := lost }
    exact PatternUnit.Checks.searchMatch { h with chkPos := Nat.mod_lt _ (by decide) }
  · refine iteInduction (motive := PatternUnit.Checks) (fun more => { h with seeded := .inl more }) fun _ => ?_
    refine iteInduction (motive := PatternUnit.Checks) (fun _ => PatternUnit.Checks.searchMatch { h with }) fun _ => ?_
    exact { h with seeded := .inl (Nat.zero_le _), matches_ := lost }

/-- The end of a block in sync: the run of bad blocks reaches 4 only under sync-mask (R186). -/
theorem PatternUnit.Checks.endBlock {u : PatternUnit} (h : u.Checks) (sync : u.sync = .inSync) (bits errors : Nat) :
    PatternUnit.Checks { u with blockBits := bits, blockErrors := errors }.endBlock := by
  unfold PatternUnit.endBlock
  refine iteInduction (motive := PatternUnit.Checks) (fun _ => h.loseSync _ _ _) fun kept => ?_
  refine { h with
    blockBits := Nat.zero_lt_succ _, blockErrors := Nat.le_refl _, badRun := Nat.min_le_right _ _
    masked := fun four => ?_, fresh := fun x => by cases sync.symm.trans x }
  by_contra bare
  exact kept ⟨min_eq_right_iff.1 four, bare⟩

theorem PatternUnit.Checks.syncBit {u : PatternUnit} (h : u.Checks) (sync : u.sync = .inSync) (b : Bool) :
    (u.syncBit b).Checks := by
  have position : (u.chkPos + 1) % 64 < 64 := Nat.mod_lt _ (by decide)
  unfold PatternUnit.syncBit
  refine iteInduction (motive := PatternUnit.Checks) (fun _ => ?_) fun more => ?_
  · exact PatternUnit.Checks.endBlock (u := { u with
      chkReg := _, chkPos := (u.chkPos + 1) % 64, errorCount := _ }) { h with chkPos := position } sync _ _
  · refine { h with chkPos := position, blockBits := Nat.lt_of_not_le more, blockErrors := ?_ }
    dsimp only
    have errors := h.blockErrors
    split_ifs <;> omega

/-- A received bit keeps the pattern unit in its ranges (R185 to R187). -/
theorem PatternUnit.takeBit_inRange {u : PatternUnit} (b : Bool) (h : u.InRange)
    (few : u.sync = .searching → u.matchRun < 64) :
    (u.takeBit b).InRange ∧ ((u.takeBit b).sync = .searching → (u.takeBit b).matchRun < 64) ∧
      (u.takeBit b).running = u.running := by
  by_cases idle : u.settings.chkPattern = .off ∨ u.running = false
  · have same : u.takeBit b = u := if_pos idle
    rw [same]
    exact ⟨h, few, rfl⟩
  · obtain ⟨on, running⟩ := not_or.1 idle
    rw [Bool.not_eq_false] at running
    have checks := h.checks on running few
    have taken : (u.takeBit b).Checks := by
      unfold PatternUnit.takeBit
      rw [if_neg idle]
      refine PatternUnit.Checks.advance ?_
      cases sync : u.sync with
      | searching => exact checks.searchBit _
      | inSync => exact checks.syncBit sync _
    exact ⟨taken.inRange, taken.matches_, taken.running.trans running.symm⟩

end Sys2Proof.Machine
end

section
/-! PROOFS. The entries that slots make, and those of a port that comes up or goes down (R20, R25, R112 to R121). -/

namespace Sys2Proof.Machine

open Function (update)

variable {ex : Did → Prop}

/-! ### Link state and monitors -/

/-- A write of a port that changes its link state and its monitors alone, of what stands in the books. -/
theorem State.updPort_monitors (s : State) (p : PortId) {f : Port → Port} {l : LinkState} {m : StuckMonitor}
    {u : PatternUnit} (h : (f (s.port p)).booked = { (s.port p).booked with link := l, stuck := m, test := u }) :
    (s.updPort p f).ledger = { s.ledger with
      link := update s.ledger.link p l, stuck := update s.ledger.stuck p m, test := update s.ledger.test p u } := by
  have field {α : Type} (g : Port → α) (hg : ∀ P : Port, g P.booked = g P) :
      g (f (s.port p)) = g { (s.port p).booked with link := l, stuck := m, test := u } := by rw [← h, hg]
  have same {α : Type} (g : Port → α) (e : g (f (s.port p)) = g (s.port p)) :
      update (fun q => g (s.port q)) p (g (f (s.port p))) = fun q => g (s.port q) := by
    rw [e]
    exact Function.update_eq_self p _
  rw [State.updPort_ledger]
  ext : 1
  case link => exact congrArg (update s.ledger.link p) (field Port.link fun _ => rfl)
  case stuck => exact congrArg (update s.ledger.stuck p) (field Port.stuck fun _ => rfl)
  case test => exact congrArg (update s.ledger.test p) (field Port.test fun _ => rfl)
  case held => exact same Port.held (field Port.held fun _ => rfl)
  case owed => exact same Port.owed (field Port.owed fun _ => rfl)
  case elements => exact same (fun P => P.elements.length) (field (fun P => P.elements.length) fun _ => rfl)
  case outbox => exact same Port.grantOutbox (field Port.grantOutbox fun _ => rfl)
  case refusals => exact same Port.refusalOutbox (field Port.refusalOutbox fun _ => rfl)
  case grant => exact same Port.grantRow (field Port.grantRow fun _ => rfl)
  case train => exact same Port.trainRow (field Port.trainRow fun _ => rfl)
  case snapshot => exact same Port.snapshotRow (field Port.snapshotRow fun _ => rfl)
  case round => exact same Port.round (field Port.round fun _ => rfl)
  case cadence => exact same (fun P => P.settings.cadence) (field (fun P => P.settings.cadence) fun _ => rfl)
  all_goals rfl

/-- Port `P` becomes `Q` in link state and monitors, within their ranges, and does not come up. -/
structure Port.Enters (P Q : Port) : Prop where
  booked : Q.booked = { P.booked with link := Q.link, stuck := Q.stuck, test := Q.test }
  up : Q.link = .up → P.link = .up
  range : MonitorsInRange P.link P.stuck P.test → MonitorsInRange Q.link Q.stuck Q.test

theorem State.enters_booked (s : State) (p : PortId) {f : Port → Port} (h : (s.port p).Enters (f (s.port p)))
    (left : (s.port p).link = .up → (f (s.port p)).link ≠ .up → ∀ d, s.portOf d = some p → ex d) :
    s.Booked ex (s.updPort p f) :=
  .entry (.monitorsTurned p _ _ _ h.range h.up left) (s.updPort_monitors p h.booked)

/-- Port `P` keeps its link state where its monitors run (R31, R183). -/
theorem State.monitors_booked (s : State) (p : PortId) {f : Port → Port} (h : (s.port p).Enters (f (s.port p)))
    (link : (f (s.port p)).link = (s.port p).link) : s.Booked ex (s.updPort p f) :=
  s.enters_booked p h fun up down => absurd (link.trans up) down

/-! ### The slot -/

theorem State.leaveHeader_ledger (s : State) (p : PortId) : (s.leaveHeader p).ledger = { s.ledger with
    grant := update s.ledger.grant p fun k => (s.ledger.grant p k).map fun y =>
      if ((s.ledger.outbox p).take 3).any (fun x => x.isFor k.1 k.2) then
        { y with deadline := some (s.now + s.lifetime) } else y,
    outbox := update s.ledger.outbox p ((s.ledger.outbox p).drop 3),
    refusals := update s.ledger.refusals p ((s.ledger.refusals p).drop 1),
    owed := update s.ledger.owed p (s.ledger.owed p - min (s.ledger.owed p) 3) } := by
  obtain ⟨⟨G, hG⟩, grants⟩ :=
    Port.startDeadlines (s.now + s.lifetime) (s.port p) ((s.port p).grantOutbox.take Config.grantSlots)
  rw [hG] at grants
  unfold State.leaveHeader
  rw [State.updPort_ledger]
  dsimp only
  rw [hG]
  ext : 1
  case grant => exact congrArg (update s.ledger.grant p) (funext fun k => grants k.1 k.2)
  case outbox | refusals | owed => rfl
  all_goals first | rfl | exact Function.update_eq_self _ _

theorem State.leaveHeader_booked (s : State) (p : PortId) : s.Booked ex (s.leaveHeader p) := by
  unfold State.Booked
  rw [s.leaveHeader_ledger]
  exact .head (.grantsSent p 3 _) (.head (.refusalsGone p _ (List.drop_sublist 1 _)) (.single (.creditsGone p _ (Nat.sub_le _ _))))

theorem State.send_booked (s : State) (p : PortId) (x : Sent) : s.Booked ex (s.send p x) :=
  .same (s.updPort_unbooked p rfl)

theorem State.assemble_booked (s : State) (p : PortId) (c : CellFields) (payload : Payload) :
    s.Booked ex (s.assemble p c payload) :=
  (s.leaveHeader_booked p).trans (State.send_booked _ p _)

theorem State.upSlot_runs (s : State) (p : PortId) : s.Runs (s.upSlot p) := by
  have opened : s.Booked (fun _ => False)
      (s.updPort p fun P => { P with round := ((s.port p).round.opened (s.port p).settings.cadence).advance }) :=
    .entry (.roundTurned p _ fun _ least top h => Round.advance_inRange h least top) (s.setRound_ledger p _)
  have assembled (t : State) (c : CellFields) (payload : Payload) : t.Runs (eventEnd t (t.assemble p c payload)) :=
    (t.assemble_booked p c payload).ends t
  unfold State.upSlot
  dsimp only
  generalize (s.updPort p fun P => { P with round := ((s.port p).round.opened (s.port p).settings.cadence).advance }) = t
    at opened
  refine iteInduction (motive := fun u => s.Runs u) (fun _ => ?_) fun _ => opened.runs.trans (assembled t _ _)
  have selected : t.Booked (fun _ => False) (t.updPort p fun P => { P with round := (t.select p).2 }) :=
    .entry (.roundTurned p _ fun weights _ _ h => State.select_inRange h weights) (t.setRound_ledger p _)
  refine opened.runs.trans (selected.runs.trans ?_)
  generalize (t.updPort p fun P => { P with round := (t.select p).2 }) = u
  cases (t.select p).1 with
  | none => exact assembled u _ _
  | some ch => exact ((u.depart_booked p ch).ends u).trans (assembled _ _ _)

theorem State.testSlot_booked {s : State} {p : PortId} (test : (s.port p).link = .test) : s.Booked ex (s.testSlot p) := by
  have turned (u : PatternUnit) (x : Sent) (sent : (s.port p).test.begin.Generates u) :
      (s.port p).Enters { s.port p with test := u, sent := x } :=
    ⟨rfl, id, fun h => ⟨h.stuck, sent.range (PatternUnit.begin_inRange h.unit), fun _ => test,
      fun l searching => lt_of_eq_of_lt sent.matchRun (h.search l (sent.sync.symm.trans searching))⟩⟩
  unfold State.testSlot
  generalize Config.slotBits = n
  refine s.monitors_booked p ?_ ?_
  · exact iteInduction (motive := fun Q => (s.port p).Enters Q) (fun _ => turned _ _ ⟨id, rfl, rfl, rfl⟩)
      fun _ => turned _ _ (PatternUnit.genBits_generates n _)
  · dsimp only
    split_ifs <;> rfl

theorem State.slotOpens_runs (s : State) (p : PortId) : s.Runs (s.slotOpens p) := by
  unfold State.slotOpens
  split
  · exact s.upSlot_runs p
  · exact (s.send_booked p _).runs
  · exact (s.send_booked p _).runs
  · exact (s.send_booked p _).runs
  · exact (s.send_booked p _).runs
  · next test => exact (State.testSlot_booked test).runs

/-! ### A port comes up -/

theorem State.portUp_booked {s : State} {p : PortId} (untested : (s.port p).link ≠ .test) : s.Booked ex (s.portUp p) := by
  refine .entry (.portRaised p untested) ?_
  unfold State.portUp
  rw [State.updPort_ledger]
  ext : 1 <;> first | rfl | exact Function.update_eq_self _ _

end Sys2Proof.Machine
end

section
/-! PROOFS. The entries of a port-down, block by block, and what the DIDs of the port hold after it (R25, R85, R87, R104,
R105, R123, R125, R139, R140, R156). -/

namespace Sys2Proof.Machine

open Function (update)

variable {ex : Did → Prop}

/-! ### The blocks -/

/-- The books of a state that keeps its ports and has the DIDs `f`. -/
theorem State.ledger_ofDids {s t : State} {f : Did → DidState} (port : ∀ p, t.port p = s.port p) (did : ∀ d, t.did d = f d)
    (rest : t.bookedRest = s.bookedRest) : t.ledger = { s.ledger with
      portOf := fun d => (f d).map.port?, floor := fun d => (f d).floor, usage := fun d => (f d).usage.get,
      bids := fun d => (f d).bids.get, queue := fun d => (f d).queues.get, refs := fun d => (f d).mcRefs.get } := by
  have ports {α : Type} (g : Port → α) : (fun p => g (t.port p)) = fun p => g (s.port p) := funext fun p => by rw [port]
  have dids {α : Type} (g : DidState → α) : (fun d => g (t.did d)) = fun d => g (f d) := funext fun d => by rw [did]
  have rests {α : Type} (g : State → α) (hg : ∀ x : State, g x.bookedRest = g x) : g t = g s := by rw [← hg t, rest, hg]
  ext : 1
  case portOf => exact dids fun D => D.map.port?
  case floor => exact dids DidState.floor
  case usage => exact dids fun D => D.usage.get
  case bids => exact dids fun D => D.bids.get
  case queue => exact dids fun D => D.queues.get
  case refs => exact dids fun D => D.mcRefs.get
  case link => exact ports Port.link
  case held => exact ports Port.held
  case owed => exact ports Port.owed
  case elements => exact ports fun P => P.elements.length
  case outbox => exact ports Port.grantOutbox
  case refusals => exact ports Port.refusalOutbox
  case grant => exact ports Port.grantRow
  case train => exact ports Port.trainRow
  case snapshot => exact ports Port.snapshotRow
  case round => exact ports Port.round
  case cadence => exact ports fun P => P.settings.cadence
  case stuck => exact ports Port.stuck
  case test => exact ports Port.test
  case classes => exact rests State.classes fun _ => rfl
  case markerUse => exact rests State.markerUse fun _ => rfl
  case owedMarkers => exact rests State.owedMarkers fun _ => rfl
  case poolSize => exact rests State.poolSize fun _ => rfl
  case poolUse => exact rests State.poolUse fun _ => rfl
  case mcCells => exact rests State.mcCells fun _ => rfl
  case mcNext => exact rests State.mcNext fun _ => rfl
  case holdOn => exact rests State.holdOn fun _ => rfl
  case holdOff => exact rests State.holdOff fun _ => rfl
  case mcHold => exact rests State.mcHold fun _ => rfl
  case elementUse => exact rests State.elementUse fun _ => rfl
  case cmdQueue => exact rests State.cmdQueue fun _ => rfl

theorem State.grantSourceDown_ledger (s : State) (p : PortId) : (s.grantSourceDown p).ledger = { s.ledger with
    bids := fun d c => bidsWithout p (s.ledger.bids d c),
    usage := fun d c => Usage.unreserve (remainingOf (s.ledger.grant p (d, c))) (s.ledger.usage d c),
    grant := update s.ledger.grant p fun _ => none, outbox := update s.ledger.outbox p [],
    refusals := update s.ledger.refusals p [] } := by
  unfold State.grantSourceDown
  dsimp only
  rw [State.updPort_ledger, State.ledger_ofDids (State.mapDids_port s _) (State.mapDids_did s _)
    (by simp only [State.bookedRest, State.mapDids]), State.mapDids_port]
  ext : 1
  case grant =>
    refine congrArg (update s.ledger.grant p) (funext fun k => ?_)
    change Port.grant _ k.1 k.2 = none
    unfold Port.grant
    rw [tabMap_get]
    cases k.2 <;> rfl
  case usage => exact funext fun d => funext fun c => PerG.get_map _ _ c
  case bids => exact funext fun d => funext fun c => PerG.get_map _ _ c
  all_goals first | rfl | exact Function.update_eq_self _ _

theorem State.grantSourceDown_booked (s : State) (p : PortId) : s.Booked ex (s.grantSourceDown p) :=
  .entry (.sourceGone p) (s.grantSourceDown_ledger p)

/-- Markers are made for trains that run (R104, R139). -/
theorem State.sourceDownKeys_live (s : State) (p : PortId) {k : MarkerKey} (h : k ∈ s.sourceDownKeys p) :
    s.ledger.Live k.did := by
  unfold State.sourceDownKeys at h
  obtain ⟨d, -, h⟩ := List.mem_flatMap.1 h
  obtain ⟨c, -, h⟩ := List.mem_flatMap.1 h
  obtain h | h := List.mem_append.1 h
  · split_ifs at h with idle
    · cases h
    · rw [List.mem_singleton.1 h]
      exact .ofTrain idle
  · split at h
    · cases h
    · next g _ =>
      dsimp only at h
      split_ifs at h with snapshot
      · rw [List.mem_singleton.1 h]
        exact .ofSnapshot (p := p) (c := g) (Bool.and_eq_true_iff.1 snapshot).2
      · cases h

theorem State.arrivalSourceDown_booked (s : State) (p : PortId) : s.Booked ex (s.arrivalSourceDown p) := by
  refine (s.makeMarks_booked fun k hk => s.sourceDownKeys_live p hk).trans ?_
  unfold State.arrivalSourceDown
  generalize s.makeMarks (s.sourceDownKeys p) = t
  refine State.Keeps.booked (t := t.updPort p fun P => { P with trains := tabMap (fun _ _ => PerClass.const .idle) P.trains })
    (.updPort _ _ p fun _ => rfl) (fun q d c h => ?_) fun q c d h => ?_
  · by_cases hq : q = p
    · subst hq
      refine absurd ?_ h
      unfold State.train
      rw [State.updPort_port_self]
      unfold Port.train
      rw [tabMap_get]
      cases c <;> rfl
    · unfold State.train at h
      rw [State.updPort_port_ne _ _ hq] at h
      exact .ofTrain h
  · unfold State.mcTrain at h
    rw [State.updPort_port] at h
    refine .ofSnapshot (p := q) (c := c) ?_
    split_ifs at h <;> exact h

theorem State.arrivalDestDown_booked (s : State) (d : Did) : s.Booked ex (s.arrivalDestDown d) :=
  (s.mapTrainsOf_booked d rfl).trans (State.discardMarksOf_booked _ d)

theorem State.mcSourceDown_booked (s : State) (p : PortId) : s.Booked ex (s.mcSourceDown p) := by
  refine State.Keeps.booked (show s.Keeps .trains (s.mcSourceDown p) from .updPort _ _ p fun _ => rfl) (fun q d c h => ?_)
    fun q c d h => ?_
  · unfold State.mcSourceDown State.train at h
    rw [State.updPort_port] at h
    refine .ofTrain (p := q) (c := c) ?_
    split_ifs at h <;> exact h
  · unfold State.mcSourceDown State.mcTrain at h
    by_cases hq : q = p
    · subst hq
      rw [State.updPort_port_self] at h
      have none : DidSet.has 0 d = true := by cases c <;> exact h
      rw [DidSet.has_zero] at none
      cases none
    · rw [State.updPort_port_ne _ _ hq] at h
      exact .ofSnapshot (p := q) (c := c) h

theorem State.blocksDown_booked (s : State) (p : PortId) : s.Booked ex (s.blocksDown p) := by
  unfold State.blocksDown
  dsimp only
  generalize s.didsOf p = ds
  refine (s.grantSourceDown_booked p).trans ((State.Booked.foldl (f := State.grantDestDown)
    (fun t d => t.grantDestDown_booked d) _ ds).trans ((State.arrivalSourceDown_booked _ p).trans
    ((State.Booked.foldl (f := State.arrivalDestDown) (fun t d => t.arrivalDestDown_booked d) _ ds).trans
    ((State.Booked.foldl (f := fun t d => t.flushDid d .addFlush) (fun t d => t.flushDid_booked d _) _ ds).trans
    ((State.dropElements_booked _ p).trans ((State.mcSourceDown_booked _ p).trans
    ((State.Booked.foldl (f := State.mcForget) (fun t d => t.mcForget_booked d) _ ds).trans ?_)))))))
  exact .entry (.creditsGone p 0 (Nat.zero_le _)) (State.setOwed_ledger _ p _)

end Sys2Proof.Machine
end

section
/-! PROOFS. The series of events that links bring: port-downs, faults, the byte search, headers, slips, the monitors and
the arrival of a cell (chapter 2). -/

namespace Sys2Proof.Machine

open Function (update)

variable {ex : Did → Prop}

/-! ### A port-down -/

/-- What a DID of the port that went down holds (R25): nothing. -/
theorem State.blocksDown_bare {s : State} {p : PortId} {d : Did} (hd : s.mapsTo d p = true) :
    (s.blocksDown p).ledger.Bare d := by
  obtain ⟨m, flushed⟩ := s.blocksDown_flushed p
  have records := fun c => s.blocksDown_records p hd c
  obtain ⟨-, -, trains⟩ := s.blocksDown_trains p
  refine ⟨(flushed.queues d hd).1, fun c => ?_, ?_, fun q c => (records c).1 q, fun q c => (trains d hd q).1 c,
    fun q c => (trains d hd q).2 c⟩
  · refine List.eq_nil_iff_forall_not_mem.2 fun e he => ?_
    exact (bidOf_eq_none e.src _).1 ((records c).2 e.src) e he rfl
  · rintro k hk rfl
    have kept : k ∈ (s.blocksDown p).owedMarkers := hk
    rw [flushed.marks.owed] at kept
    have made := (m.returnMarks_serving _).owed k kept
    rw [flushed.made.owed, List.mem_filter, hd] at made
    exact Bool.false_ne_true made.2

/-- A port enters a state other than UP (R25). -/
theorem State.leaveFor_event (s : State) (p : PortId) {entry : Port → Port} (why : DownCause)
    (h : (s.port p).Enters (entry (s.port p))) : s.Event (s.leaveFor p entry why) := by
  obtain ⟨-, e⟩ | ⟨down, e⟩ := s.leaveFor_cases p entry why <;> rw [e]
  · refine ⟨fun d => s.portOf d = some p, ?_, fun d hd _ => State.blocksDown_bare ?_⟩
    · exact (s.enters_booked (ex := fun d => s.portOf d = some p) p (f := fun P => { entry P with lastDown := why })
        ⟨h.booked, h.up, h.range⟩ fun _ _ d hd => hd).trans (State.blocksDown_booked _ p)
    · unfold State.mapsTo State.portOf
      rw [State.updPort_did]
      exact decide_eq_true hd
  · refine ⟨fun _ => False, s.enters_booked p h fun up => ?_, fun _ => nofun⟩
    rw [State.isUp, up] at down
    cases down

/-- A port outside TEST goes to another state outside TEST. -/
theorem MonitorsInRange.move {l l' : LinkState} {m : StuckMonitor} {u : PatternUnit} (h : MonitorsInRange l m u)
    (idle : l = .test → u.running = false) (off : l' ≠ .test) : MonitorsInRange l' m u where
  stuck := h.stuck
  unit := h.unit
  running on := by
    rw [idle (h.running on)] at on
    cases on
  search x := absurd x off

theorem Port.enterAcquiring_enters {P : Port} (idle : P.link = .test → P.test.running = false) : P.Enters P.enterAcquiring :=
  ⟨rfl, nofun, fun h => h.move idle nofun⟩

theorem Port.enterFaulted_enters {P : Port} (untested : P.link ≠ .test) : P.Enters P.enterFaulted :=
  ⟨rfl, nofun, fun h => h.move (fun x => absurd x untested) nofun⟩

theorem Port.enterTest_enters (t : TestSettings) (P : Port) : P.Enters (Port.enterTest t P) :=
  ⟨rfl, nofun, fun h => ⟨h.stuck, PatternUnit.start_inRange t, nofun, fun _ _ => Nat.zero_lt_succ _⟩⟩

theorem Port.enterDisabled_enters (P : Port) : P.Enters P.enterDisabled := by
  refine ⟨rfl, nofun, fun h => ⟨⟨Nat.zero_lt_succ _, fun _ => rfl⟩, ?_, fun on => ?_, nofun⟩⟩
  · exact iteInduction (motive := PatternUnit.InRange) (fun _ => PatternUnit.stop_inRange h.unit) fun _ => h.unit
  · unfold Port.enterDisabled at on
    dsimp only at on
    split_ifs at on with test
    · cases on
    · exact absurd (h.running on) test

/-! ### Faults -/

theorem State.judgeFault_runs (s : State) (p : PortId) : s.Runs (s.judgeFault p) := by
  obtain ⟨link, -, e⟩ | ⟨link, -, e⟩ | e := s.judgeFault_cases p <;> rw [e]
  · refine (s.leaveFor_event p _ (Port.enterFaulted_enters fun test => ?_)).runs
    rw [test] at link
    simp at link
  · exact (s.leaveFor_event p _ (Port.enterAcquiring_enters fun test => by rw [link] at test; cases test)).runs
  · exact (State.Booked.refl s).runs

theorem State.toAcquiring_runs (s : State) (p : PortId) (why : DownCause)
    (idle : (s.port p).link = .test → (s.port p).test.running = false) : s.Runs (s.toAcquiring p why) :=
  (s.leaveFor_event p why (Port.enterAcquiring_enters idle)).runs.trans (State.judgeFault_runs _ p)

theorem State.unbooked_runs (s : State) (p : PortId) {f : Port → Port} (h : (f (s.port p)).booked = (s.port p).booked) :
    s.Runs (s.updPort p f) := (State.Booked.same (s.updPort_unbooked p h)).runs

/-! ### Headers, slips and measurements -/

theorem State.acquire_runs {s : State} {p : PortId} (c : RawCell) (link : (s.port p).link = .acquiring) :
    s.Runs (s.acquire p c) := by
  unfold State.acquire
  dsimp only
  split
  · exact s.unbooked_runs p rfl
  · next header _ =>
    have turned : s.Booked (fun _ => False) (s.updPort p fun P =>
        { Port.takeFlags (IngressHeader.read header) P with
          alignCount := Config.alignTarget, failCount := 0, link := .waiting, searchBytes := [], searchSkip := 0 }) :=
      s.enters_booked p ⟨rfl, nofun, fun h => h.move (fun x => by rw [link] at x; cases x) nofun⟩
        fun up => by rw [link] at up; cases up
    refine iteInduction (motive := fun t => s.Runs t) (fun _ => turned.runs.trans (State.Booked.runs ?_)) fun _ => turned.runs
    exact State.portUp_booked (by rw [State.updPort_port_self]; nofun)

theorem State.headerFails_runs {s : State} {p : PortId} (untested : (s.port p).link ≠ .test) : s.Runs (s.headerFails p) := by
  have counted : s.Runs ((s.countPort p .incHdrErr).updPort p fun P => { P with failCount := P.failCount + 1 }) :=
    (s.countPort_booked p _).runs.trans (State.unbooked_runs _ p rfl)
  have link : (((s.countPort p .incHdrErr).updPort p fun P => { P with failCount := P.failCount + 1 }).port p).link =
      (s.port p).link := by
    rw [State.updPort_port_self, State.countPort_port, if_pos rfl]
  unfold State.headerFails
  refine iteInduction (motive := fun t => s.Runs t) (fun _ => counted.trans ?_) fun _ => counted
  exact State.toAcquiring_runs _ p _ fun x => absurd (link.symm.trans x) untested

theorem State.recentre_runs (s : State) (p : PortId) : s.Runs (s.recentre p) := s.unbooked_runs p rfl

theorem State.slips_runs (s : State) (p : PortId) (k : SlipKind) : s.Runs (s.slips p k) := by
  have counted : s.Runs ((s.recentre p).countPort p .incSlip) :=
    (s.recentre_runs p).trans (State.countPort_booked _ p _).runs
  have link : (((s.recentre p).countPort p .incSlip).port p).link = (s.port p).link := by
    rw [State.countPort_port, if_pos rfl, State.recentre, State.updPort_port_self]
  have lost (untested : (s.port p).link ≠ .test) :
      s.Runs (if (((s.recentre p).countPort p .incSlip).port p).settings.autoRecentre then
        (s.recentre p).countPort p .incSlip else ((s.recentre p).countPort p .incSlip).toAcquiring p .slip) :=
    iteInduction (motive := fun t => s.Runs t) (fun _ => counted)
      fun _ => counted.trans (State.toAcquiring_runs _ p _ fun x => absurd (link.symm.trans x) untested)
  unfold State.slips
  split
  · exact (State.Booked.refl s).runs
  · exact s.recentre_runs p
  · exact s.recentre_runs p
  · exact (s.recentre_runs p).trans (State.unbooked_runs _ p rfl)
  · next link => exact lost (by rw [link]; nofun)
  · next link => exact lost (by rw [link]; nofun)

theorem State.qualityCompletes_runs (s : State) (p : PortId) (fig : BitVec 6) : s.Runs (s.qualityCompletes p fig) :=
  iteInduction (motive := fun t => s.Runs t) (fun _ => (State.Booked.refl s).runs)
    fun _ => (s.unbooked_runs p rfl).trans (State.judgeFault_runs _ p)

/-! ### Received bits -/

theorem State.takeStuckBits_runs (p : PortId) (bs : List Bool) (s : State) : s.Runs (s.takeStuckBits p bs) := by
  induction bs generalizing s with
  | nil => exact (State.Booked.refl s).runs
  | cons b bs ih =>
    refine iteInduction (motive := fun t => s.Runs t) (fun _ => (State.Booked.refl s).runs) fun _ => ?_
    have taken : s.Runs (s.updPort p fun P =>
        { P with stuck := P.stuck.takeBit P.settings.stuckN P.settings.stuckK b }) :=
      (s.monitors_booked p ⟨rfl, id, fun h => ⟨StuckMonitor.takeBit_inRange _ _ b h.stuck, h.unit, h.running, h.search⟩⟩
        rfl).runs
    refine State.Runs.trans ?_ (ih _)
    exact iteInduction (motive := fun t => s.Runs t) (fun _ => taken)
      fun _ => taken.trans ((State.judgeFault_runs _ p).trans (eventEnd_runs s _))

theorem State.takeTestBits_runs (p : PortId) (bs : List Bool) (s : State) : s.Runs (s.takeTestBits p bs) := by
  induction bs generalizing s with
  | nil => exact (State.Booked.refl s).runs
  | cons b bs ih =>
    refine iteInduction (motive := fun t => s.Runs t) (fun test => ?_) fun _ => (State.Booked.refl s).runs
    have taken : s.Runs (s.updPort p fun P => { P with test := P.test.takeBit b }) := by
      refine (s.monitors_booked p ⟨rfl, id, fun h => ?_⟩ rfl).runs
      obtain ⟨unit, few, running⟩ := PatternUnit.takeBit_inRange b h.unit (h.search test)
      exact ⟨h.stuck, unit, fun on => h.running (running.symm.trans on), fun _ => few⟩
    refine State.Runs.trans ?_ (ih _)
    exact iteInduction (motive := fun t => s.Runs t) (fun _ => taken) fun _ => taken.trans (noticeStep_booked s _).runs

/-! ### The arrival of a cell -/

theorem State.takeBids_runs (p : PortId) (bs : List BidSlot) (h : ∀ b ∈ bs, b.count ≤ 255) (s : State) :
    s.Runs (s.takeBids p bs) := by
  induction bs generalizing s with
  | nil => exact (State.Booked.refl s).runs
  | cons b bs ih =>
    exact ((s.takeBid_booked p (h b List.mem_cons_self)).ends s).trans
      (ih (fun x hx => h x (List.mem_cons_of_mem b hx)) _)

theorem BidSlot.read_count (x y : Byte) : (BidSlot.read x y).count ≤ 255 := Nat.le_of_lt_succ y.isLt

theorem IngressHeader.read_bids (h : HeaderBytes) : ∀ b ∈ (IngressHeader.read h).bids, b.count ≤ 255 := by
  intro b hb
  simp only [IngressHeader.read, List.mem_cons, List.not_mem_nil, or_false] at hb
  obtain rfl | rfl | rfl | rfl := hb <;> exact BidSlot.read_count _ _

theorem State.cellArrives_runs (s : State) (p : PortId) (c : RawCell) : s.Runs (s.cellArrives p c) := by
  have flags : s.Runs (s.updPort p fun P => { Port.takeFlags (IngressHeader.read c.header) P with failCount := 0 }) :=
    s.unbooked_runs p rfl
  have link : ((s.updPort p fun P => { Port.takeFlags (IngressHeader.read c.header) P with failCount := 0 }).port p).link =
      (s.port p).link := by
    rw [State.updPort_port_self]
    rfl
  have failed (untested : (s.port p).link ≠ .test) : s.Runs (eventEnd s (s.headerFails p)) :=
    (State.headerFails_runs untested).trans (eventEnd_runs s _)
  have ended {t : State} (h : s.Runs t) : s.Runs (eventEnd s t) := h.trans (eventEnd_runs s t)
  unfold State.cellArrives
  dsimp only
  split
  · exact (State.Booked.refl s).runs
  · exact (State.Booked.refl s).runs
  · exact (State.Booked.refl s).runs
  · next acquiring => exact ended (State.acquire_runs c acquiring)
  · next waiting =>
    have untested : (s.port p).link ≠ .test := by rw [waiting]; nofun
    refine iteInduction (motive := fun t => s.Runs t) (fun _ => ended ?_) fun _ => failed untested
    exact iteInduction (motive := fun t => s.Runs t)
      (fun _ => flags.trans (State.portUp_booked fun x => untested (link.symm.trans x)).runs) fun _ => flags
  · next up =>
    have untested : (s.port p).link ≠ .test := by rw [up]; nofun
    refine iteInduction (motive := fun t => s.Runs t) (fun _ => ?_) fun _ => failed untested
    refine iteInduction (motive := fun t => s.Runs t) (fun _ => ?_) fun _ => ended ?_
    · exact flags.trans ((State.takeBids_runs p _ (IngressHeader.read_bids _) _).trans ((State.takeCell_booked _ p _ c).ends _))
    · exact flags.trans (State.toAcquiring_runs _ p _ fun x => absurd (link.symm.trans x) untested)

end Sys2Proof.Machine
end

section
/-! PROOFS. The course of every command of the table: series of events, and the four commands that write settings, the
pools or everything at once. -/

namespace Sys2Proof.Machine

open Function (update)

/-! ### The course of a command -/

/-- One turn of the element: an event, the classes or the pools set, and the two resets. -/
inductive State.Turn (s : State) : State → Prop
  | event {t : State} (h : s.Event t) : State.Turn s t
  | classes (cmd : CmdCell) : State.Turn s { s with classes := ⟨classFrom cmd 1, classFrom cmd 5, classFrom cmd 9⟩ }
  | pool (cmd : CmdCell) (fits : (s.applyPoolSet cmd).SharedPoolLaw)
      (room : s.poolUse ≤ clampPool (cmd.param 1).toNat) : State.Turn s (s.applyPoolSet cmd)
  | emptied : State.Turn s s.emptied
  | reset (straps : BitVec 3) (pending : List Instr) :
      State.Turn s { State.reset with plane := straps, pending := pending }

/-- A series of turns. -/
def State.Course (s t : State) : Prop := Relation.ReflTransGen State.Turn s t

theorem State.Course.trans {s t u : State} (h : s.Course t) (k : t.Course u) : s.Course u := Relation.ReflTransGen.trans h k

theorem State.Course.refl (s : State) : s.Course s := Relation.ReflTransGen.refl

theorem State.Turn.course {s t : State} (h : s.Turn t) : s.Course t := .single h

theorem State.Runs.course {s t : State} (h : s.Runs t) : s.Course t := 
  Relation.ReflTransGen.mono (fun _ _ => State.Turn.event) _ _ h

theorem State.Booked.course {s t : State} (h : s.Booked (fun _ => False) t) : s.Course t := h.runs.course

/-- States with the same books. -/
theorem State.Course.same {s t : State} (h : t.ledger = s.ledger) : s.Course t := (State.Booked.same h).course

/-! ### The commands that change a port -/

theorem State.applyEnable_runs (s : State) (p : PortId) (before : Bool) : s.Runs (s.applyEnable p before) := by
  unfold State.applyEnable
  refine State.Runs.trans ?_ (State.judgeFault_runs _ p)
  refine iteInduction (motive := fun t => s.Runs t) (fun _ => ?_) fun _ => ?_
  · exact (s.leaveFor_event p _ (Port.enterDisabled_enters _)).runs
  · refine iteInduction (motive := fun t => s.Runs t) (fun enabled => ?_) fun _ => (State.Booked.refl s).runs
    have disabled : (s.port p).link = .disabled := of_decide_eq_true (Bool.and_eq_true_iff.1 enabled).2
    exact (s.leaveFor_event p _ (Port.enterAcquiring_enters fun test => by rw [disabled] at test; cases test)).runs

theorem cadenceOf_length (n : Nat) (w : Word) : (cadenceOf n w).length = n := by
  unfold cadenceOf
  rw [List.length_map, List.length_range]

/-- The settings of a port are written (R164). -/
theorem State.newSettings_booked (s : State) (p : PortId) {cmd : CmdCell} (good : badCadence cmd = false) :
    s.Booked (fun _ => False) (s.updPort p fun P => { P with settings := newSettings cmd P.settings }) := by
  by_cases named : cmd.names 9 = true
  · have cadence : (newSettings cmd (s.port p).settings).cadence = cadenceOf (cmd.param 12).toNat (cmd.param 13) :=
      if_pos named
    have given : ¬ ((cmd.param 12).toNat = 0 ∨ 16 < (cmd.param 12).toNat) := fun bad =>
      Bool.eq_false_iff.1 good ((badCadence_iff cmd).2 ⟨named, bad⟩)
    refine .entry (.cadenceSet p (cadenceOf (cmd.param 12).toNat (cmd.param 13)) ?_ ?_) ?_
    · rw [cadenceOf_length]; omega
    · rw [cadenceOf_length]; omega
    · rw [State.updPort_ledger]
      ext : 1
      case cadence => exact congrArg (update s.ledger.cadence p) cadence
      all_goals first | rfl | exact Function.update_eq_self _ _
  · have cadence : (newSettings cmd (s.port p).settings).cadence = (s.port p).settings.cadence := if_neg named
    refine .same (s.updPort_unbooked p ?_)
    unfold Port.booked
    dsimp only
    rw [cadence]

theorem State.applyPortSet_runs (s : State) (p : PortId) {cmd : CmdCell} (good : badCadence cmd = false) :
    s.Runs (s.applyPortSet p cmd) :=
  (s.newSettings_booked p good).runs.trans (State.applyEnable_runs _ p _)

theorem State.stopTest_runs (s : State) (p : PortId) : s.Runs (s.stopTest p) := by
  refine iteInduction (motive := fun t => s.Runs t) (fun test => ?_) fun _ => (State.Booked.refl s).runs
  refine iteInduction (motive := fun t => s.Runs t) (fun _ => ?_) fun _ => ?_
  · have left : (s.updPort p fun P => { P with test := P.test.stop }).leaveFor p Port.enterAcquiring .test =
        s.updPort p fun P => Port.enterAcquiring { P with test := P.test.stop } := by
      refine (if_neg ?_).trans (s.updPort_updPort p _ _)
      rw [State.isUp, State.updPort_port_self]
      simp [test]
    have stopped : s.Booked (fun _ => False) (s.updPort p fun P => Port.enterAcquiring { P with test := P.test.stop }) :=
      s.enters_booked p ⟨rfl, nofun, fun h => ⟨h.stuck, PatternUnit.stop_inRange h.unit, nofun, nofun⟩⟩
        fun up => by rw [test] at up; cases up
    unfold State.toAcquiring
    rw [left]
    exact stopped.runs.trans (State.judgeFault_runs _ p)
  · exact (s.leaveFor_event p _ (Port.enterDisabled_enters _)).runs

/-! ### The commands that change an entry -/

/-- An idle DID takes a new entry (R144). -/
theorem State.applyMapSet_event {s : State} {d : Did} (m : DidMap) (drained : s.drained d = true) :
    s.Event (s.applyMapSet d m) := by
  have written : s.Keeps .event (s.setMap d m) := .updDid _ _ _ fun _ => rfl
  have vacant := written.vacant (fun _ => rfl) (fun _ => rfl) (fun _ => rfl) (State.drained_vacant drained)
  refine ⟨(· = d), (State.setMap_booked (ex := (· = d)) s m rfl).trans ((State.rejudgeBids_booked _ vacant.grant).trans
    ((State.mapTrainsOf_booked _ d rfl).trans (State.mcForget_booked _ d))), ?_⟩
  rintro _ rfl down
  refine vacant.bare (Bool.eq_false_iff.2 fun up => down ((State.reachable_ledger _ _).1 ?_))
  exact (((State.rejudgeBids_keepsRefusals _ _).reachable (fun _ => rfl) (fun _ => rfl) _ |> fun judged =>
    ((State.idleTrainsOf_keepsTrains _ _).trans (State.mcForget_keepsTrains _ _)).reachable (fun _ => rfl)
      (fun _ => rfl) _ |>.trans judged)).trans up

theorem State.startMove_runs {s : State} {d : Did} {port : PortId} (mapped : (s.did d).map = .mapped port)
    (target : PortId) (code : Nat) : s.Runs (s.startMove d port target code) := by
  refine iteInduction (motive := fun t => s.Runs t) (fun _ => (s.completeMove_booked d _).runs) fun _ => ?_
  refine (State.Booked.same ?_).runs.trans (State.judgeDrain_runs _ d)
  have portOf : s.ledger.portOf d = some port := congrArg DidMap.port? mapped
  rw [State.setMap_ledger, show DidMap.port? (.moving port target _ code) = s.ledger.portOf d from portOf.symm,
    Function.update_eq_self]

/-! ### The command unit -/

theorem judgeCommand_course {cmd : CmdCell} {judge : CmdCell → State → Reply} {s : State} (h : s.Course (judge cmd s).state) :
    s.Course (judgeCommand cmd judge s).state := by
  unfold judgeCommand
  split_ifs
  · exact h
  · exact .refl s

theorem withValue_course {α : Type} (x : Option α) {s : State} {k : α → Reply} (h : ∀ a, s.Course (k a).state) :
    s.Course (withValue x s k).state := withValue_relates (.refl s) x h

/-- A step of the command unit, by the course of its judgement (R159). -/
theorem commandStep_course {judge : CmdCell → State → Reply} (h : ∀ cmd u, State.Course u (judge cmd u).state)
    (want : Option Code) (s : State) : s.Course (commandStep want judge s) := by
  obtain e | ⟨cmd, rest, -, queue, -, e⟩ := commandStep_cases want judge s <;> rw [e]
  · exact .refl s
  · exact (State.takeCommand_booked queue).course.trans ((h cmd _).trans (State.offerResponse_booked _ _ _).course)

theorem doPortSet_course (cmd : CmdCell) (s : State) : s.Course (doPortSet cmd s).state := by
  refine withValue_course _ fun p => ?_
  split_ifs with _ bad
  · exact .refl s
  · exact .refl s
  · exact .refl s
  · exact ((s.applyPortSet_runs p (Bool.eq_false_iff.2 bad)).trans (eventEnd_runs s _)).course

theorem doPoolSet_course (cmd : CmdCell) (s : State) : s.Course (doPoolSet cmd s).state := by
  rw [doPoolSet_eq cmd s rfl rfl]
  split_ifs with _ full use
  · exact .refl s
  · exact .refl s
  · exact .refl s
  · refine (State.Turn.pool cmd ?_ (Nat.le_of_not_lt use)).course
    unfold State.SharedPoolLaw
    rw [State.applyPoolSet_sharedPool, State.applyPoolSet_excessSum]
    exact Int.not_lt.1 full

theorem doMapSet_course (cmd : CmdCell) (s : State) : s.Course (doMapSet cmd s).state := by
  refine withValue_course _ fun d => withValue_course _ fun m => ?_
  split_ifs with _ drained
  · exact .refl s
  · exact (State.applyMapSet_event m drained).runs.course
  · exact .refl s

theorem doMapMove_course (cmd : CmdCell) (s : State) : s.Course (doMapMove cmd s).state := by
  refine withValue_course _ fun d => withValue_course _ fun target => ?_
  split
  · exact .refl s
  · exact .refl s
  · next mapped => exact ((State.startMove_runs mapped target _).trans (noticeStep_booked s _).runs).course

theorem doNoticeRead_course (cmd : CmdCell) (s : State) : s.Course (doNoticeRead cmd s).state :=
  (State.Course.same (s.mapPorts_unbooked fun _ => rfl)).trans (.same (State.mapDids_unbooked _ fun _ => rfl))

theorem doCountersRead_course (cmd : CmdCell) (s : State) : s.Course (doCountersRead cmd s).state := by
  unfold doCountersRead
  dsimp only
  split
  · exact withValue_course _ fun p => iteInduction (motive := fun t => s.Course t)
      (fun _ => (s.countPort_booked p _).course) fun _ => .refl s
  · exact withValue_course _ fun d => iteInduction (motive := fun t => s.Course t)
      (fun _ => (s.countDid_booked d _).course) fun _ => .refl s
  · exact iteInduction (motive := fun t => s.Course t) (fun _ => .same rfl) fun _ => .refl s
  · exact .refl s

theorem doTestStart_course (cmd : CmdCell) (s : State) : s.Course (doTestStart cmd s).state := by
  refine withValue_course _ fun p => withValue_course _ fun gen => withValue_course _ fun chk =>
    withValue_course _ fun base => ?_
  split_ifs
  · exact .refl s
  · exact ((s.leaveFor_event p _ (Port.enterTest_enters _ _)).runs.trans (eventEnd_runs s _)).course

/-- What each command of the command unit asks, but FABRIC-RESET, takes its course. -/
theorem Code.judge_course (code : Code) (cmd : CmdCell) (s : State) : s.Course (code.judge cmd s).state := by
  cases code
  case portSet => exact doPortSet_course cmd s
  case classSet => exact (State.Turn.classes cmd).course
  case poolSet => exact doPoolSet_course cmd s
  case mapSet => exact doMapSet_course cmd s
  case mapMove => exact doMapMove_course cmd s
  case groupSet => exact withValue_course _ fun _ => .same rfl
  case noticeExpect => exact withValue_course _ fun p => .same (s.updPort_unbooked p rfl)
  case noticeRead => exact doNoticeRead_course cmd s
  case countersRead => exact doCountersRead_course cmd s
  case testStart => exact doTestStart_course cmd s
  case testStop => exact withValue_course _ fun p => ((s.stopTest_runs p).trans (eventEnd_runs s _)).course
  case linesSet => exact withValue_course _ fun _ => withValue_course _ fun _ => .same rfl
  case lifetimeSet => exact .same rfl
  case portGet | mapGet | groupGet | testRead => exact withValue_course _ fun _ => .refl s
  case identify | fabricReset => exact .refl s

theorem execFabricReset_course {s t : State} (h : execFabricReset s = .next t) : s.Course t := by
  cases h
  split
  · next cmd rest _ queue =>
    refine iteInduction (motive := fun t => s.Course t) (fun _ => ?_) fun _ => .refl s
    refine (State.takeCommand_booked queue).course.trans ?_
    refine iteInduction (motive := fun t => State.Course _ t) (fun _ => ?_) fun _ => (State.offerResponse_booked _ _ _).course
    exact (State.Turn.emptied).course.trans (noticeStep_booked _ _).course
  · exact .refl s

theorem exec_course (c : Instr) {s t : State} (h : exec c s = .next t) : s.Course t := by
  have unit (code : Code) : s.Course (commandStep (some code) (fun x u => judgeCommand x code.judge u) s) :=
    commandStep_course (fun cmd u => judgeCommand_course (code.judge_course cmd u)) _ s
  cases c
  case fabricReset => exact execFabricReset_course h
  all_goals cases h
  case deviceReset straps => exact (State.Turn.reset straps s.pending).course
  case ingressCell p c => exact (s.cellArrives_runs p c).course
  case slip p k => exact ((s.slips_runs p k).trans (eventEnd_runs s _)).course
  case stuckLineAssert p bits | stuckBlockEnd p bits => exact (State.takeStuckBits_runs p bits s).course
  case qualityCompletion p fig => exact ((s.qualityCompletes_runs p fig).trans (eventEnd_runs s _)).course
  case slot p => exact (s.slotOpens_runs p).course
  case checkerSync p bits | testBlockEnd p bits | timebaseCompletion p bits =>
    exact (State.takeTestBits_runs p bits s).course
  case grantIssue d g => exact (s.arbitrate_booked d g).course
  case grantExpiry p d g => exact ((s.expire_booked p d g).ends s).course
  case owedMarkerService => exact (s.serveOwed_booked.ends s).course
  case drainedCutover d => exact ((s.judgeDrain_runs d).trans (noticeStep_booked s _).runs).course
  case moveDeadline d => exact ((s.forceMove_runs d).trans (eventEnd_runs s _)).course
  case heldResponseOffer => exact s.offerHeld_booked.course
  case identify => exact unit .identify
  case portSet => exact unit .portSet
  case portGet => exact unit .portGet
  case classSet => exact unit .classSet
  case poolSet => exact unit .poolSet
  case lifetimeSet => exact unit .lifetimeSet
  case mapSet => exact unit .mapSet
  case mapMove => exact unit .mapMove
  case mapGet => exact unit .mapGet
  case groupSet => exact unit .groupSet
  case groupGet => exact unit .groupGet
  case noticeExpect => exact unit .noticeExpect
  case noticeRead => exact unit .noticeRead
  case countersRead => exact unit .countersRead
  case testStart => exact unit .testStart
  case testStop => exact unit .testStop
  case testRead => exact unit .testRead
  case linesSet => exact unit .linesSet
  case badCommand => exact commandStep_course (fun _ u => .refl u) none s

/-- A step takes its course: the books do not know the commands that wait outside nor the clock. -/
theorem step_course {s t : State} (h : step s = .next t) : s.Course t := by
  obtain ⟨c, rest, -, e⟩ | ⟨-, c, -, e⟩ | ⟨-, -, e⟩ := step_cases s <;> rw [e] at h
  · exact (State.Course.same (s := s) (t := { s with pending := rest }) rfl).trans (exec_course c h)
  · exact exec_course c h
  · cases h
    exact .same rfl

end Sys2Proof.Machine
end

section
/-! PROOFS. The bounds of the books, entry by entry: credits, element cells, lists, the multicast pool and its hold, and the
shared pool (R47, R50, R69, R77, R99, R136, R137, R157, R158). -/

namespace Sys2Proof.Machine

open Function (update)

variable {ex : Did → Prop} {b c : Ledger}

/-! ### Sums over ports and destinations -/

/-- Two sums that differ in one summand. -/
theorem sum_replace {n : Nat} (i : Fin n) {f g : Fin n → Nat} (h : ∀ j, j ≠ i → g j = f j) :
    ((List.finRange n).map g).sum + f i = ((List.finRange n).map f).sum + g i := by
  simp only [← Fin.sum_univ_def]
  have others : ∑ j ∈ Finset.univ.erase i, g j = ∑ j ∈ Finset.univ.erase i, f j :=
    Finset.sum_congr rfl fun j hj => h j (Finset.ne_of_mem_erase hj)
  rw [← Finset.add_sum_erase _ g (Finset.mem_univ i), ← Finset.add_sum_erase _ f (Finset.mem_univ i), others]
  omega

theorem sum_update {n : Nat} (f : Fin n → Nat) (i : Fin n) (x : Nat) :
    ((List.finRange n).map (update f i x)).sum + f i = ((List.finRange n).map f).sum + x := by
  have replaced := sum_replace i (f := f) (g := update f i x) fun j hj => Function.update_of_ne hj _ _
  rwa [Function.update_self] at replaced

theorem le_sum {n : Nat} (f : Fin n → Nat) (i : Fin n) : f i ≤ ((List.finRange n).map f).sum :=
  List.single_le_sum (fun _ _ => Nat.zero_le _) _ (List.mem_map.2 ⟨i, List.mem_finRange i, rfl⟩)

/-- A table with one entry replaced keeps what holds of all its entries. -/
theorem forall_update {α β : Type} [DecidableEq α] {P : α → β → Prop} {f : α → β} {a : α} {x : β} (h : ∀ i, P i (f i))
    (hx : P a x) (i : α) : P i (update f a x i) := by
  by_cases hi : i = a
  · subst hi
    rwa [Function.update_self]
  · rw [Function.update_of_ne hi]
    exact h i

/-! ### Credits -/

def Ledger.Credit (b : Ledger) : Prop := ∀ p, b.held p + b.owed p ≤ 8

theorem State.creditLaw_iff (s : State) : s.CreditLaw ↔ s.ledger.Credit := Iff.rfl

/-- What a release leaves at every port (R155). -/
theorem Ledger.release_total (b : Ledger) (p q : PortId) :
    (b.release p).held q + (b.release p).owed q ≤ b.held q + b.owed q := by
  unfold Ledger.release
  dsimp only
  by_cases h : q = p
  · subst h
    rw [Function.update_self, Function.update_self]
    split_ifs with moved <;> omega
  · rw [Function.update_of_ne h, Function.update_of_ne h]

theorem Ledger.Entry.credit (e : Ledger.Entry ex b c) (h : b.Credit) : c.Credit := by
  have raise (p : PortId) (credit : b.held p + b.owed p < 8) (q : PortId) :
      update b.held p (b.held p + 1) q + b.owed q ≤ 8 :=
    forall_update (P := fun q x => x + b.owed q ≤ 8) h (by omega) q
  have owe (p : PortId) (n : Nat) (fits : b.held p + n ≤ 8) (q : PortId) : b.held q + update b.owed p n q ≤ 8 :=
    forall_update (P := fun q x => b.held q + x ≤ 8) h fits q
  cases e
  case cellCredited d x _ credit => exact raise x.src credit
  case commandQueued x credit _ => exact raise x.src credit
  case creditRefunded p credit => exact owe p _ (by omega)
  case creditsGone p n less => exact owe p n (by have := h p; omega)
  case portRaised p _ => exact owe p _ (by have := h p; omega)
  case commandTaken x _ _ => exact fun q => (b.release_total x.src q).trans (h q)
  case creditLeaves d x _ _ => exact fun q => (b.release_total x.src q).trans (h q)
  all_goals exact h

/-! ### Element cells -/

def Ledger.Elements (b : Ledger) : Prop := b.elementUse = (allPorts.map b.elements).sum ∧ b.elementUse ≤ 32

theorem State.elementLaw_iff (s : State) : s.ElementLaw ↔ s.ledger.Elements := Iff.rfl

theorem Ledger.Entry.elements (e : Ledger.Entry ex b c) (h : b.Elements) : c.Elements := by
  obtain ⟨sum, top⟩ := h
  have replaced (p : PortId) (n : Nat) := sum_update b.elements p n
  change ∀ p n, (allPorts.map (update b.elements p n)).sum + b.elements p = (allPorts.map b.elements).sum + n at replaced
  cases e
  case elementPlaced p room =>
    refine ⟨?_, room⟩
    have placed := replaced p (b.elements p + 1)
    dsimp only
    omega
  case elementsGone p n enough =>
    have gone := replaced p (b.elements p - n)
    constructor <;> dsimp only <;> omega
  all_goals exact ⟨sum, top⟩

/-! ### Lists -/

/-- The lists of the element, bounded (R47, R69, R77, R101, R158). -/
structure Ledger.Lists (b : Ledger) : Prop where
  commands : b.cmdQueue.length ≤ 16
  markers : b.markerUse ≤ 64
  apart : b.owedMarkers.Nodup
  served : b.markerUse < 64 → b.owedMarkers = []
  outbox : ∀ p, (b.outbox p).length ≤ 8
  refusals : ∀ p, (b.refusals p).length ≤ 4 ∧ (b.refusals p).Nodup

theorem State.listLaw_iff (s : State) : s.ListLaw ↔ s.ledger.Lists :=
  ⟨fun ⟨commands, markers, apart, served, ports⟩ => ⟨commands, markers, apart, served, fun p => (ports p).1, fun p => (ports p).2⟩,
    fun h => ⟨h.commands, h.markers, h.apart, h.served, fun p => ⟨h.outbox p, h.refusals p⟩⟩⟩

theorem outboxWithout_length (d : Did) (g : GClass) (box : List GrantEntry) : (outboxWithout d g box).length ≤ box.length :=
  List.length_filter_le _ _

theorem outboxCapped_length (d : Did) (g : GClass) (n : Nat) (box : List GrantEntry) :
    (outboxCapped d g n box).length = box.length := List.length_map _

theorem outboxPlace_length {d : Did} {g : GClass} {q : Nat} {box : List GrantEntry} (top : box.length ≤ 8)
    (takes : box.length < 8 ∨ ∃ x ∈ box, x.isFor d g = true) : (outboxPlace d g q box).length ≤ 8 := by
  unfold outboxPlace
  split_ifs with any
  · rwa [List.length_map]
  · rw [List.length_append]
    exact takes.resolve_right fun found => any (List.any_eq_true.2 found)

theorem Ledger.Entry.lists (e : Ledger.Entry ex b c) (h : b.Lists) : c.Lists := by
  have box (p : PortId) (l : List GrantEntry) (top : l.length ≤ 8) : ∀ q, (update b.outbox p l q).length ≤ 8 :=
    forall_update (P := fun _ l => List.length l ≤ 8) h.outbox top
  have answers (p : PortId) (l : List RefusalEntry) (top : l.length ≤ 4) (apart : l.Nodup) :
      ∀ q, (update b.refusals p l q).length ≤ 4 ∧ (update b.refusals p l q).Nodup :=
    forall_update (P := fun _ l => List.length l ≤ 4 ∧ List.Nodup l) h.refusals ⟨top, apart⟩
  cases e
  case refused p r fresh room =>
    refine { h with refusals := answers p _ ?_ ?_ }
    · rw [List.length_append]; exact room
    · exact List.nodup_append.2 ⟨(h.refusals p).2, List.nodup_singleton r, fun x hx y hy e => by
        rw [List.mem_singleton.1 hy] at e
        exact fresh (e ▸ hx)⟩
  case refusalsGone p l sub =>
    exact { h with refusals := answers p l (sub.length_le.trans (h.refusals p).1) ((h.refusals p).2.sublist sub) }
  case recordClosed p d g _ _ => exact { h with outbox := box p _ ((outboxWithout_length d g _).trans (h.outbox p)) }
  case recordCut p d g _ n _ _ _ =>
    exact { h with outbox := box p _ ((outboxCapped_length d g n _).trans_le (h.outbox p)) }
  case sourceGone p =>
    exact { h with outbox := box p [] (Nat.zero_le _), refusals := answers p [] (Nat.zero_le _) List.nodup_nil }
  case grantIssued d g x q _ _ _ _ takes _ => exact { h with outbox := box x.src _ (outboxPlace_length (h.outbox x.src) takes) }
  case grantsSent p n time => exact { h with outbox := box p _ ((List.drop_sublist n _).length_le.trans (h.outbox p)) }
  case cellGranted p d g r x _ _ =>
    refine { h with outbox := box p _ ?_ }
    split_ifs
    · exact (outboxWithout_length d g _).trans (h.outbox p)
    · exact (outboxCapped_length d g _ _).trans_le (h.outbox p)
  case markPlaced k _ free => exact { h with markers := free, served := fun _ => h.served free }
  case markOwed k _ full fresh =>
    refine { h with apart := ?_, served := fun less => absurd less (Nat.not_lt.2 full) }
    exact List.nodup_append.2 ⟨h.apart, List.nodup_singleton k, fun x hx y hy e => by
      rw [List.mem_singleton.1 hy] at e
      exact fresh (e ▸ hx)⟩
  case owedGone l sub =>
    refine { h with apart := h.apart.sublist sub, served := fun free => ?_ }
    rw [h.served free] at sub
    exact List.sublist_nil.1 sub
  case commandQueued x _ room => exact { h with commands := by rw [List.length_append]; exact room }
  case commandTaken x rest head =>
    refine { h with commands := ?_ }
    have top := h.commands
    rw [head, List.length_cons] at top
    exact (Nat.le_succ _).trans top
  case markLeaves d k src mc rest l head served =>
    have use := h.markers
    obtain ⟨-, rfl⟩ | ⟨full, -⟩ := served
    · exact { h with markers := (Nat.sub_le _ _).trans use, apart := List.nodup_nil, served := fun _ => rfl }
    · omega
  case markServes d k src mc rest m l head sub _ free =>
    refine { h with markers := free, apart := (h.apart.sublist sub).of_cons, served := fun less => ?_ }
    dsimp only at less
    rw [h.served (by omega)] at sub
    exact absurd (List.sublist_nil.1 sub) nofun
  all_goals exact { h with }

/-! ### The multicast pool -/

/-- The stored multicast cells (R136). -/
structure Ledger.Pool (b : Ledger) : Prop where
  use : b.poolUse = b.mcCells.length
  size : b.poolUse ≤ b.poolSize
  apart : (b.mcCells.map fun m => m.name).Nodup
  names : ∀ m ∈ b.mcCells, m.name < b.mcNext
  fanOut : ∀ m ∈ b.mcCells, 1 ≤ m.fanOut

theorem State.poolLaw_iff (s : State) : s.PoolLaw ↔ s.ledger.Pool :=
  ⟨fun ⟨use, size, apart, names, fanOut⟩ => ⟨use, size, apart, names, fanOut⟩,
    fun h => ⟨h.use, h.size, h.apart, h.names, h.fanOut⟩⟩

/-- Stored cells of one name are one (R136). -/
theorem eq_of_name_eq {l : List McCell} (apart : (l.map fun m => m.name).Nodup) {m x : McCell} (hm : m ∈ l) (hx : x ∈ l)
    (h : x.name = m.name) : x = m := List.inj_on_of_nodup_map apart hx hm h

/-- One cell leaves the pool. -/
theorem length_without_name {l : List McCell} (apart : (l.map fun m => m.name).Nodup) {m : McCell} (hm : m ∈ l) :
    (l.filter fun x => !decide (x.name = m.name)).length = l.length - 1 := by
  induction l with
  | nil => cases hm
  | cons y l ih =>
    rw [List.map_cons, List.nodup_cons] at apart
    obtain ⟨fresh, apart⟩ := apart
    rw [List.mem_cons] at hm
    by_cases hy : y.name = m.name
    · have others : ∀ x ∈ l, x.name ≠ m.name := fun x hx e => fresh (List.mem_map.2 ⟨x, hx, e.trans hy.symm⟩)
      rw [List.filter_cons_of_neg (by simp [hy]), List.filter_eq_self.2 fun x hx => by simp [others x hx]]
      rfl
    · have hl : m ∈ l := hm.resolve_left fun e => hy (e ▸ rfl)
      have pos := List.length_pos_of_mem hl
      rw [List.filter_cons_of_pos (by simp [hy]), List.length_cons, ih apart hl, List.length_cons]
      omega

theorem name_of_find {l : List McCell} {n : Nat} {m : McCell} (h : l.find? (fun x => decide (x.name = n)) = some m) :
    m ∈ l ∧ m.name = n := ⟨List.mem_of_find?_eq_some h, of_decide_eq_true (List.find?_some (p := fun x : McCell => decide (x.name = n)) h)⟩

/-- A stored cell with its fan-out lowered keeps its name (R136). -/
theorem lowered_name (n : Nat) (x : McCell) : (if x.name = n then { x with fanOut := x.fanOut - 1 } else x).name = x.name := by
  split_ifs <;> rfl

theorem Ledger.Entry.pool (e : Ledger.Entry ex b c) (h : b.Pool) : c.Pool := by
  cases e
  case cellStored g ds x _ any _ free =>
    refine ⟨?_, free, ?_, fun m hm => ?_, fun m hm => ?_⟩
    · rw [List.length_append, ← h.use]
      rfl
    · rw [List.map_append]
      refine List.nodup_append.2 ⟨h.apart, List.nodup_singleton _, fun n hn y hy e => ?_⟩
      obtain ⟨m, hm, rfl⟩ := List.mem_map.1 hn
      rw [List.map_singleton, List.mem_singleton] at hy
      exact Nat.ne_of_lt (h.names m hm) (e.trans hy)
    · obtain hm | hm := List.mem_append.1 hm
      · exact Nat.lt_succ_of_lt (h.names m hm)
      · rw [List.mem_singleton.1 hm]
        exact Nat.lt_succ_self _
    · obtain hm | hm := List.mem_append.1 hm
      · exact h.fanOut m hm
      · rw [List.mem_singleton.1 hm]
        exact List.length_pos_iff.2 any
  case refLast d k n rest m _ named _ =>
    obtain ⟨hm, rfl⟩ := name_of_find named
    refine ⟨?_, (Nat.sub_le _ _).trans h.size, h.apart.sublist (List.filter_sublist.map _),
      fun x hx => h.names x (List.mem_of_mem_filter hx), fun x hx => h.fanOut x (List.mem_of_mem_filter hx)⟩
    rw [length_without_name h.apart hm, ← h.use]
  case refLeaves d k n rest m _ named more =>
    obtain ⟨hm, rfl⟩ := name_of_find named
    refine ⟨?_, h.size, ?_, fun x hx => ?_, fun x hx => ?_⟩
    · rw [List.length_map]
      exact h.use
    · rw [List.map_map]
      exact (congrArg List.Nodup (List.map_congr_left fun x _ => lowered_name m.name x)).mpr h.apart
    · obtain ⟨y, hy, rfl⟩ := List.mem_map.1 hx
      rw [lowered_name]
      exact h.names y hy
    · obtain ⟨y, hy, rfl⟩ := List.mem_map.1 hx
      split_ifs with name
      · rw [eq_of_name_eq h.apart hm hy name]
        exact Nat.le_sub_of_add_le more
      · exact h.fanOut y hy
  all_goals exact { h with }

/-! ### The multicast hold -/

def Ledger.Hold (b : Ledger) : Prop :=
  (b.poolSize - b.poolUse ≤ b.holdOn → b.mcHold = true) ∧
  (max b.holdOff (b.holdOn + 1) ≤ b.poolSize - b.poolUse → b.mcHold = false)

theorem State.holdLaw_iff (s : State) : s.HoldLaw ↔ s.ledger.Hold := Iff.rfl

/-- The hold as it was judged (R137). -/
theorem holdAfter_agrees (before : Bool) (free on off : Nat) : (free ≤ on → holdAfter before free on off = true) ∧
    (max off (on + 1) ≤ free → holdAfter before free on off = false) := by
  unfold holdAfter
  refine ⟨fun low => if_pos low, fun high => ?_⟩
  rw [if_neg (by omega), if_pos high]

theorem Ledger.Entry.hold (e : Ledger.Entry ex b c) (h : b.Hold) : c.Hold := by
  cases e
  case cellStored => exact holdAfter_agrees _ _ _ _
  case refLast => exact holdAfter_agrees _ _ _ _
  all_goals exact h

/-! ### The shared pool -/

def Ledger.Shared (b : Ledger) : Prop := (b.excessSum : Int) ≤ b.sharedPool

theorem State.sharedPoolLaw_iff (s : State) : s.SharedPoolLaw ↔ s.ledger.Shared := Iff.rfl

/-- Books whose usages did not grow. -/
theorem Ledger.Shared.of_le (h : b.Shared) (pool : c.sharedPool = b.sharedPool) (floor : c.floor = b.floor)
    (usage : ∀ d g, (c.usage d g).total ≤ (b.usage d g).total) : c.Shared := by
  unfold Ledger.Shared
  rw [pool]
  refine le_trans (Int.ofNat_le.2 (List.sum_le_sum fun d _ => ?_)) h
  have c1 := usage d .c1
  have c2 := usage d .c2
  have c3 := usage d .c3
  unfold Ledger.excess Ledger.used
  rw [floor]
  omega

/-- Usages of one queue replaced by a smaller one. -/
theorem usage_put_le {u : Did → GClass → Usage} {d : Did} {g : GClass} {x : Usage} (h : x.total ≤ (u d g).total) (e : Did)
    (k : GClass) : (put u d g x e k).total ≤ (u e k).total := by
  rw [put_apply]
  split_ifs with same
  · rw [same.1, same.2]
    exact h
  · exact Nat.le_refl _

theorem Usage.unreserve_total (n : Nat) (u : Usage) : (u.unreserve n).total ≤ u.total :=
  Nat.add_le_add_left (Nat.sub_le _ _) _

theorem Usage.release_total (u : Usage) : u.release.total ≤ u.total := Nat.add_le_add_right (Nat.sub_le _ _) _

theorem Usage.fill_total (u : Usage) : u.fill.total = u.total := by
  unfold Usage.fill Usage.total
  split_ifs with zero
  · rfl
  · dsimp only
    omega

/-- The use of a DID after `n` further cells in one class. -/
theorem used_put {u : Did → GClass → Usage} {d : Did} {g : GClass} {x : Usage} {n : Nat}
    (h : x.total = (u d g).total + n) :
    (put u d g x d .c1).total + (put u d g x d .c2).total + (put u d g x d .c3).total =
      (u d .c1).total + (u d .c2).total + (u d .c3).total + n := by
  cases g <;> simp only [put_apply, true_and, reduceCtorEq, if_true, if_false] <;> omega

/-- A usage that grows within the room of its DID (R50, R51). -/
theorem Ledger.Shared.of_room (h : b.Shared) {d : Did} {g : GClass} {x : Usage} {n : Nat} (room : b.Room d n)
    (grown : x.total = (b.usage d g).total + n) (pool : c.sharedPool = b.sharedPool) (floor : c.floor = b.floor)
    (usage : c.usage = put b.usage d g x) : c.Shared := by
  have used : c.used d = b.used d + n := by
    unfold Ledger.used
    rw [usage]
    exact used_put grown
  have others (e : Did) (he : e ≠ d) : c.excess e = b.excess e := by
    unfold Ledger.excess Ledger.used
    rw [usage, floor]
    simp only [put_ne b.usage x (b := g) (fun k => he k.1)]
  have sum := sum_replace d others
  change c.excessSum + b.excess d = b.excessSum + c.excess d at sum
  have own : c.excess d = b.used d + n - b.floor d := by
    unfold Ledger.excess
    rw [used, floor]
  unfold Ledger.Room at room
  unfold Ledger.Shared at h ⊢
  rw [pool]
  omega

theorem Ledger.Entry.shared (e : Ledger.Entry ex b c) (h : b.Shared) : c.Shared := by
  cases e
  case recordClosed p d g r _ => exact h.of_le rfl rfl (usage_put_le (Usage.unreserve_total _ _))
  case recordCut p d g r n _ _ _ => exact h.of_le rfl rfl (usage_put_le (Usage.unreserve_total _ _))
  case sourceGone p => exact h.of_le rfl rfl fun d g => Usage.unreserve_total _ _
  case grantIssued d g x q _ _ _ _ _ room => exact h.of_room room (Nat.add_assoc _ _ _).symm rfl rfl rfl
  case cellGranted p d g r x _ _ => exact h.of_le rfl rfl (usage_put_le (Usage.fill_total _).le)
  case cellLate p d g x _ _ room => exact h.of_room room (Nat.add_right_comm _ _ _) rfl rfl rfl
  case cellLeaves d g x rest _ => exact h.of_le rfl rfl (usage_put_le (Usage.release_total _))
  all_goals exact h

end Sys2Proof.Machine
end

section
/-! PROOFS. Laws of the books along the course of a command: the bounds of the books are kept by every step. -/

namespace Sys2Proof.Machine

open Function (update)

/-! ### The books after the turns that are no events -/

theorem State.applyPoolSet_ledger (s : State) (cmd : CmdCell) : (s.applyPoolSet cmd).ledger = { s.ledger with
    floor := newFloor cmd, poolSize := clampPool (cmd.param 1).toNat, holdOn := clampNat 0 8192 (cmd.param 2).toNat,
    holdOff := clampNat 0 8192 (cmd.param 3).toNat,
    mcHold := holdAfter s.mcHold (clampPool (cmd.param 1).toNat - s.poolUse) (clampNat 0 8192 (cmd.param 2).toNat)
      (clampNat 0 8192 (cmd.param 3).toNat) } := by
  have books := State.ledger_ofDids (State.mapDids_port s fun d D => { D with floor := newFloor cmd d })
    (State.mapDids_did s fun d D => { D with floor := newFloor cmd d }) (by simp only [State.bookedRest, State.mapDids])
  have hold : (s.mapDids fun d D => { D with floor := newFloor cmd d }).mcHold = s.mcHold := State.mapDids_mcHold s _
  have use : (s.mapDids fun d D => { D with floor := newFloor cmd d }).poolUse = s.poolUse := State.mapDids_poolUse s _
  unfold State.applyPoolSet
  generalize (s.mapDids fun d D => { D with floor := newFloor cmd d }) = u at books hold use
  rw [← hold, ← use]
  have applied (pool on off : Nat) : ({ u with poolSize := pool, holdOn := on, holdOff := off }.judgeHold).ledger =
      { u.ledger with
        poolSize := pool, holdOn := on, holdOff := off, mcHold := holdAfter u.mcHold (pool - u.poolUse) on off } := rfl
  rw [applied, books]
  rfl

theorem Port.fabricLink_booked (P : Port) : P.fabricLink.booked = { P.booked with link := P.fabricLink.link } := by
  obtain ⟨-, e⟩ | ⟨-, -, e⟩ := P.fabricLink_cases <;> rw [e]
  · rfl
  · split_ifs <;> rfl

theorem DidState.fabricReset_shape (D : DidState) : ∃ l b, D.fabricReset = { D with
    usage := .const ⟨0, 0⟩, bids := .const [], queues := .const [], mcRefs := .const 0, map := D.fabricReset.map,
    lastMove := l, moveDone := b } := by
  unfold DidState.fabricReset
  dsimp only
  split
  · exact ⟨_, _, rfl⟩
  · exact ⟨D.lastMove, D.moveDone, rfl⟩

theorem State.emptied_bookedRest (s : State) : s.emptied.bookedRest = { s.bookedRest with
    markerUse := 0, owedMarkers := [], poolUse := 0, mcCells := [], elementUse := 0, cmdQueue := [],
    mcHold := holdAfter false (s.poolSize - 0) s.holdOn s.holdOff } := by
  simp only [State.bookedRest, State.emptied, State.judgeHold, State.freeMulticast, State.mapDids, State.mapPorts]

theorem State.emptied_ledger (s : State) : s.emptied.ledger = { s.ledger with
    link := fun p => (s.port p).fabricLink.link, held := fun _ => 0, owed := fun _ => 0, elements := fun _ => 0,
    outbox := fun _ => [], refusals := fun _ => [], grant := fun _ _ => none, train := fun _ _ => .idle,
    snapshot := fun _ _ => 0, portOf := fun d => (s.did d).fabricReset.map.port?, usage := fun _ _ => ⟨0, 0⟩,
    bids := fun _ _ => [], queue := fun _ _ => [], refs := fun _ _ => 0, markerUse := 0, owedMarkers := [], poolUse := 0,
    mcCells := [], mcHold := holdAfter false (s.poolSize - 0) s.holdOn s.holdOff, elementUse := 0, cmdQueue := [] } := by
  have port := s.emptied_port
  have did := s.emptied_did
  have rest := s.emptied_bookedRest
  generalize s.emptied = t at port did rest
  have ports {α : Type} (g : Port → α) {x : PortId → α} (h : ∀ p, g (s.port p).fabricLink.fabricEmpty = x p) :
      (fun p => g (t.port p)) = x := funext fun p => by rw [port, h]
  have linked {α : Type} (g : Port → α) (h : ∀ (P : Port) (l : LinkState), g { P.booked with link := l } = g P) (p : PortId) :
      g (s.port p).fabricLink = g (s.port p) := by
    rw [← h _ (s.port p).fabricLink.link, ← h (s.port p) (s.port p).fabricLink.link]
    exact congrArg g (Port.fabricLink_booked _)
  have dids {α : Type} (g : DidState → α) {x : Did → α} (h : ∀ d l b, g { s.did d with
      usage := .const ⟨0, 0⟩, bids := .const [], queues := .const [], mcRefs := .const 0,
      map := (s.did d).fabricReset.map, lastMove := l, moveDone := b } = x d) : (fun d => g (t.did d)) = x := by
    funext d
    obtain ⟨l, b, e⟩ := (s.did d).fabricReset_shape
    rw [did, e]
    exact h d l b
  have rests {α : Type} (g : State → α) (hg : ∀ x : State, g x.bookedRest = g x) : g t = g { s.bookedRest with
      markerUse := 0, owedMarkers := [], poolUse := 0, mcCells := [], elementUse := 0, cmdQueue := [],
      mcHold := holdAfter false (s.poolSize - 0) s.holdOn s.holdOff } := by rw [← hg t, rest]
  ext : 1
  case link => exact ports Port.link fun _ => rfl
  case held => exact ports Port.held fun _ => rfl
  case owed => exact ports Port.owed fun _ => rfl
  case elements => exact ports (fun P => P.elements.length) fun _ => rfl
  case outbox => exact ports Port.grantOutbox fun _ => rfl
  case refusals => exact ports Port.refusalOutbox fun _ => rfl
  case grant => exact ports Port.grantRow fun p => funext fun k => Port.fabricEmpty_grant _ k.1 k.2
  case train =>
    refine ports Port.trainRow fun p => funext fun k => ?_
    unfold Port.trainRow Port.train Port.fabricEmpty
    rw [tabMap_get]
    cases k.2 <;> rfl
  case snapshot => exact ports Port.snapshotRow fun p => funext fun c => by cases c <;> rfl
  case round => exact ports Port.round (linked Port.round fun _ _ => rfl)
  case cadence => exact ports (fun P => P.settings.cadence) (linked (fun P => P.settings.cadence) fun _ _ => rfl)
  case stuck => exact ports Port.stuck (linked Port.stuck fun _ _ => rfl)
  case test => exact ports Port.test (linked Port.test fun _ _ => rfl)
  case portOf => exact dids (fun D => D.map.port?) fun _ _ _ => rfl
  case floor => exact dids DidState.floor fun _ _ _ => rfl
  case usage => exact dids (fun D => D.usage.get) fun _ _ _ => funext fun c => by cases c <;> rfl
  case bids => exact dids (fun D => D.bids.get) fun _ _ _ => funext fun c => by cases c <;> rfl
  case queue => exact dids (fun D => D.queues.get) fun _ _ _ => funext fun c => by cases c <;> rfl
  case refs => exact dids (fun D => D.mcRefs.get) fun _ _ _ => funext fun c => by cases c <;> rfl
  case classes => exact rests State.classes fun _ => rfl
  case markerUse => exact rests State.markerUse fun _ => rfl
  case owedMarkers => exact rests State.owedMarkers fun _ => rfl
  case poolSize => exact rests State.poolSize fun _ => rfl
  case poolUse => exact rests State.poolUse fun _ => rfl
  case mcCells => exact rests State.mcCells fun _ => rfl
  case mcNext => exact rests State.mcNext fun _ => rfl
  case holdOn => exact rests State.holdOn fun _ => rfl
  case holdOff => exact rests State.holdOff fun _ => rfl
  case mcHold => exact rests State.mcHold fun _ => rfl
  case elementUse => exact rests State.elementUse fun _ => rfl
  case cmdQueue => exact rests State.cmdQueue fun _ => rfl

/-! ### Laws along a course -/

/-- A law of the books that every entry and every other turn keeps. -/
structure Ledger.Lasting (law : Ledger → Prop) : Prop where
  entry : ∀ (ex : Did → Prop) (b c : Ledger), Ledger.Entry ex b c → law b → law c
  classes : ∀ (b : Ledger) (cmd : CmdCell), law b →
    law { b with classes := ⟨classFrom cmd 1, classFrom cmd 5, classFrom cmd 9⟩ }
  pool : ∀ (s : State) (cmd : CmdCell), (s.applyPoolSet cmd).SharedPoolLaw → s.poolUse ≤ clampPool (cmd.param 1).toNat →
    law s.ledger → law (s.applyPoolSet cmd).ledger
  emptied : ∀ s : State, law s.ledger → law s.emptied.ledger
  reset : law State.reset.ledger

/-- The plane straps and the commands that wait outside stand in no book. -/
theorem State.ledger_straps (s : State) (straps : BitVec 3) (pending : List Instr) :
    ({ s with plane := straps, pending := pending } : State).ledger = s.ledger := rfl

theorem Ledger.Lasting.turn {law : Ledger → Prop} (l : Ledger.Lasting law) {s t : State} (h : s.Turn t)
    (hs : law s.ledger) : law t.ledger := by
  cases h with
  | event h =>
    obtain ⟨ex, booked, -⟩ := h
    exact booked.keeps (l.entry ex) hs
  | classes cmd => exact l.classes s.ledger cmd hs
  | pool cmd fits room => exact l.pool s cmd fits room hs
  | emptied => exact l.emptied s hs
  | reset straps pending =>
    rw [State.ledger_straps]
    exact l.reset

theorem State.Course.keeps {law : State → Prop} (h : ∀ s t : State, s.Turn t → law s → law t) {s t : State}
    (k : s.Course t) (hs : law s) : law t :=
  Relation.ReflTransGen.head_induction_on (motive := fun u _ => law u → law t) k id (fun turn _ ih hu => ih (h _ _ turn hu)) hs

/-- Every step keeps a lasting law of the books. -/
theorem Ledger.Lasting.kept {law : Ledger → Prop} (l : Ledger.Lasting law) : KeptByEveryStep fun s => law s.ledger :=
  fun _ _ hs h => (step_course h).keeps (law := fun s => law s.ledger) (fun _ _ => l.turn) hs

theorem Ledger.Lasting.and {law rule : Ledger → Prop} (l : Ledger.Lasting law) (k : Ledger.Lasting rule) :
    Ledger.Lasting fun b => law b ∧ rule b where
  entry ex b c e h := ⟨l.entry ex b c e h.1, k.entry ex b c e h.2⟩
  classes b cmd h := ⟨l.classes b cmd h.1, k.classes b cmd h.2⟩
  pool s cmd fits room h := ⟨l.pool s cmd fits room h.1, k.pool s cmd fits room h.2⟩
  emptied s h := ⟨l.emptied s h.1, k.emptied s h.2⟩
  reset := ⟨l.reset, k.reset⟩

/-! ### The bounds -/

theorem Ledger.Credit.lasting : Ledger.Lasting Ledger.Credit where
  entry _ _ _ e := e.credit
  classes _ _ h := h
  pool s cmd _ _ h := by rw [s.applyPoolSet_ledger]; exact h
  emptied s _ := by rw [s.emptied_ledger]; exact fun _ => Nat.zero_le _
  reset := by
    obtain ⟨credit, -⟩ := resetMeetsEveryLaw
    exact (State.creditLaw_iff _).1 credit

theorem Ledger.Elements.lasting : Ledger.Lasting Ledger.Elements where
  entry _ _ _ e := e.elements
  classes _ _ h := h
  pool s cmd _ _ h := by rw [s.applyPoolSet_ledger]; exact h
  emptied s _ := by
    rw [s.emptied_ledger]
    exact ⟨(List.sum_eq_zero fun n hn => by obtain ⟨_, -, rfl⟩ := List.mem_map.1 hn; rfl).symm, Nat.zero_le _⟩
  reset := by
    obtain ⟨-, law, -⟩ := resetMeetsEveryLaw
    exact (State.elementLaw_iff _).1 law

theorem Ledger.Lists.lasting : Ledger.Lasting Ledger.Lists where
  entry _ _ _ e := e.lists
  classes _ _ h := { h with }
  pool s cmd _ _ h := by rw [s.applyPoolSet_ledger]; exact { h with }
  emptied s _ := by
    rw [s.emptied_ledger]
    exact ⟨Nat.zero_le _, Nat.zero_le _, List.nodup_nil, fun _ => rfl, fun _ => Nat.zero_le _,
      fun _ => ⟨Nat.zero_le _, List.nodup_nil⟩⟩
  reset := by
    obtain ⟨-, -, law, -⟩ := resetMeetsEveryLaw
    exact (State.listLaw_iff _).1 law

theorem Ledger.Pool.lasting : Ledger.Lasting Ledger.Pool where
  entry _ _ _ e := e.pool
  classes _ _ h := { h with }
  pool s cmd _ room h := by rw [s.applyPoolSet_ledger]; exact { h with size := room }
  emptied s _ := by
    rw [s.emptied_ledger]
    exact ⟨rfl, Nat.zero_le _, List.nodup_nil, nofun, nofun⟩
  reset := by
    obtain ⟨-, -, -, law, -⟩ := resetMeetsEveryLaw
    exact (State.poolLaw_iff _).1 law

theorem Ledger.Hold.lasting : Ledger.Lasting Ledger.Hold where
  entry _ _ _ e := e.hold
  classes _ _ h := h
  pool s cmd _ _ _ := by rw [s.applyPoolSet_ledger]; exact holdAfter_agrees _ _ _ _
  emptied s _ := by rw [s.emptied_ledger]; exact holdAfter_agrees _ _ _ _
  reset := by
    obtain ⟨-, -, -, -, -, -, -, -, -, -, -, -, -, law, -⟩ := resetMeetsEveryLaw
    exact (State.holdLaw_iff _).1 law

theorem Ledger.Shared.lasting : Ledger.Lasting Ledger.Shared where
  entry _ _ _ e := e.shared
  classes _ _ h := h
  pool _ _ fits _ _ := (State.sharedPoolLaw_iff _).1 fits
  emptied s h := by
    rw [s.emptied_ledger]
    refine Ledger.Shared.of_le h rfl rfl fun d g => ?_
    exact Nat.zero_le _
  reset := by
    obtain ⟨-, -, -, -, law, -⟩ := resetMeetsEveryLaw
    exact (State.sharedPoolLaw_iff _).1 law

end Sys2Proof.Machine
end

section
/-! PROOFS. No MOVING DID stays drained (R148), and the bounds of the element (O5). -/

namespace Sys2Proof.Machine

open Function (update)

theorem State.Keeps.drained_of_event {s t : State} (h : s.Keeps .event t) (d : Did) : t.drained d = s.drained d :=
  h.drained (fun _ => rfl) (fun _ => rfl) (fun _ => rfl) (fun _ => rfl) d

/-! ### Moves that go on -/

/-- From `s` to `t` no DID begins a move, and none that moves is left drained. -/
structure State.Stays (s t : State) : Prop where
  moving : ∀ d, (t.did d).map.isMoving = true → (s.did d).map.isMoving = true
  drained : ∀ d, (t.did d).map.isMoving = true → s.drained d = false → t.drained d = false

theorem DidState.Follows.moving {D E : DidState} (h : D.Follows E) (moving : E.map.isMoving = true) :
    D.map.isMoving = true := by
  obtain ⟨same, -⟩ | ⟨_, _, _, _, _, cut, -⟩ := h.2
  · rwa [← same]
  · rw [cut] at moving
    cases moving

namespace State.Stays

variable {s t u : State}

theorem refl (s : State) : s.Stays s := ⟨fun _ => id, fun _ _ => id⟩

theorem trans (h : s.Stays t) (k : t.Stays u) : s.Stays u :=
  ⟨fun d x => h.moving d (k.moving d x), fun d x y => k.drained d x (h.drained d (k.moving d x) y)⟩

theorem moveLaw (h : s.Stays t) (hs : s.MoveLaw) : t.MoveLaw :=
  fun d moving => h.drained d moving (hs d (h.moving d moving))

/-- No DID begins a move, and none is drained that was not. -/
theorem of (moving : ∀ d, (t.did d).map.isMoving = true → (s.did d).map.isMoving = true)
    (drained : ∀ d, t.drained d = true → s.drained d = true) : s.Stays t :=
  ⟨moving, fun d _ before => Bool.eq_false_iff.2 fun after => by
    rw [drained d after] at before
    cases before⟩

/-- No DID begins a move, and the four parts stay in the books. -/
theorem ofLedger (moving : ∀ d, (t.did d).map.isMoving = true → (s.did d).map.isMoving = true) (queue : t.ledger.queue = s.ledger.queue)
    (grant : t.ledger.grant = s.ledger.grant) (outbox : t.ledger.outbox = s.ledger.outbox)
    (owed : t.ledger.owedMarkers = s.ledger.owedMarkers) : s.Stays t := by
  refine .of moving fun d => ?_
  rw [State.drained_iff, State.drained_iff]
  rintro ⟨hq, hg, hb, ho⟩
  rw [queue] at hq
  rw [grant] at hg
  rw [outbox] at hb
  rw [owed] at ho
  exact ⟨hq, hg, hb, ho⟩

theorem same (moving : ∀ d, (t.did d).map.isMoving = true → (s.did d).map.isMoving = true) (books : t.ledger = s.ledger) : s.Stays t :=
  .ofLedger moving (by rw [books]) (by rw [books]) (by rw [books]) (by rw [books])

theorem ofNotice (h : s.Keeps .notice t) : s.Stays t :=
  .of (fun d => by rw [show t.did d = s.did d from h.did d]; exact id)
    fun d => by rw [h.drained (fun _ => rfl) (fun _ => rfl) (fun _ => rfl) (fun _ => rfl) d]; exact id

/-- A port changes, and neither its records nor its outbox do. -/
theorem updPort (s : State) (p : PortId) {f : Port → Port} (grants : ∀ P, (f P).grants = P.grants)
    (box : ∀ P, (f P).grantOutbox = P.grantOutbox) : s.Stays (s.updPort p f) :=
  .of (fun d => by rw [State.updPort_did]; exact id) fun d => by rw [s.updPort_drained p d f grants box]; exact id

theorem end_follows (s t : State) (d : Did) : (t.did d).Follows ((eventEnd s t).did d) := by
  rw [show (eventEnd s t).did d = (s.drainStep t).did d from State.did_congr (noticeStep_dids s _) d]
  exact (s.drainStep_calm t).did d

/-- An event leaves no MOVING DID drained (R148). -/
theorem ended (moving : ∀ d, ((eventEnd s t).did d).map.isMoving = true → (s.did d).map.isMoving = true) :
    s.Stays (eventEnd s t) := by
  refine ⟨moving, fun d x before => ?_⟩
  have still := (end_follows s t d).moving x
  rw [(eventEnd_keeps s t).drained_of_event]
  refine Bool.eq_false_iff.2 fun drained => ?_
  cases hm : (t.did d).map with
  | moving port target time code =>
    obtain ⟨cut, -⟩ := eventEnd_cuts hm before drained
    rw [cut] at x
    cases x
  | _ =>
    rw [hm] at still
    cases still

theorem event (moving : ∀ d, (t.did d).map.isMoving = true → (s.did d).map.isMoving = true) : s.Stays (eventEnd s t) :=
  .ended fun d x => moving d ((end_follows s t d).moving x)

theorem linkEvent {p : PortId} (h : s.LinkEvent p (eventEnd s t)) : s.Stays (eventEnd s t) :=
  .ended fun d => (h.turns.did d).moving

end State.Stays

/-! ### The course of a move -/

/-- A cutover takes its DID out of the map's moves and leaves the others (R149). -/
theorem State.cutover_stays (s : State) (d : Did) (target : PortId) (r : MoveResult) : s.Stays (s.cutover d target r) := by
  have moving (e : Did) (x : ((s.cutover d target r).did e).map.isMoving = true) : (s.did e).map.isMoving = true := by
    by_cases he : e = d
    · subst he
      unfold State.cutover at x
      rw [s.setMap_completeMove] at x
      have written := ((State.afterCutover_calm _ e).did e).moving x
      rw [State.updDid_did, if_pos rfl] at written
      cases written
    · exact ((s.cutover_remaps d target r).did e he).moving x
  exact ⟨moving, fun e _ before => ((s.cutover_keeps d target r).drained_of_event e).trans before⟩

theorem State.judgeDrain_stays (s : State) (d : Did) : s.Stays (s.judgeDrain d) := by
  obtain ⟨_, target, _, _, -, -, e⟩ | ⟨-, e⟩ := s.judgeDrain_cases d <;> rw [e]
  · exact s.cutover_stays d target _
  · exact .refl s

theorem noticeStep_stays (s t : State) : t.Stays (noticeStep s t) := .ofNotice (noticeStep_keeps s t)

/-- A DID that moves is cut over where it is drained (R148). -/
theorem State.judgeDrain_moveLaw {s : State} {d : Did}
    (others : ∀ e, e ≠ d → (s.did e).map.isMoving = true → s.drained e = false) : (s.judgeDrain d).MoveLaw := by
  intro e moving
  have before := (s.judgeDrain_stays d).moving e moving
  by_cases he : e = d
  · subst he
    obtain ⟨_, target, _, _, -, -, cut⟩ | ⟨off | dry, same⟩ := s.judgeDrain_cases e
    · rw [cut] at moving
      unfold State.cutover at moving
      rw [s.setMap_completeMove] at moving
      have written := ((State.afterCutover_calm _ e).did e).moving moving
      rw [State.updDid_did, if_pos rfl] at written
      cases written
    · rw [off] at before
      cases before
    · rw [same]
      exact dry
  · exact (s.judgeDrain_stays d).drained e moving (others e he before)

theorem State.startMove_moveLaw {s : State} (hs : s.MoveLaw) (d : Did) (port target : PortId) (code : Nat) :
    (s.startMove d port target code).MoveLaw := by
  have completed : s.Keeps .event (s.completeMove d .drained) := .updDid _ _ _ fun _ => rfl
  have begun (m : DidMap) : s.Keeps .event (s.setMap d m) := .updDid _ _ _ fun _ => rfl
  refine iteInduction (motive := State.MoveLaw) (fun _ e moving => ?_)
    fun _ => State.judgeDrain_moveLaw fun e he moving => ?_
  · rw [completed.drained_of_event]
    refine hs e ?_
    rw [State.completeMove, State.updDid_did] at moving
    split_ifs at moving with h
    · rw [h] at moving ⊢
      exact moving
    · exact moving
  · rw [(begun _).drained_of_event]
    rw [State.setMap, s.updDid_did_ne _ he] at moving
    exact hs e moving

/-! ### Events -/

theorem State.takeStuckBits_stays (p : PortId) (bits : List Bool) (s : State) : s.Stays (s.takeStuckBits p bits) := by
  induction bits generalizing s with
  | nil => exact .refl s
  | cons b bits ih =>
    refine iteInduction (motive := fun t => s.Stays t) (fun _ => .refl s) fun _ => State.Stays.trans ?_ (ih _)
    refine iteInduction (motive := fun t => s.Stays t) (fun _ => .updPort s p (fun _ => rfl) fun _ => rfl) fun _ => ?_
    refine .event fun d => ?_
    have judged := (State.judgeFault_turns (s.updPort p (Port.stuckBit b)) p).1.did d
    rw [State.updPort_did] at judged
    exact judged.moving

theorem State.takeTestBits_stays (p : PortId) (bits : List Bool) (s : State) : s.Stays (s.takeTestBits p bits) := by
  induction bits generalizing s with
  | nil => exact .refl s
  | cons b bits ih =>
    refine iteInduction (motive := fun t => s.Stays t) (fun _ => State.Stays.trans ?_ (ih _)) fun _ => .refl s
    have taken : s.Stays (s.updPort p fun P => { P with test := P.test.takeBit b }) :=
      .updPort s p (fun _ => rfl) fun _ => rfl
    exact iteInduction (motive := fun t => s.Stays t) (fun _ => taken) fun _ => taken.trans (noticeStep_stays s _)

theorem State.takeBids_stays (p : PortId) (bs : List BidSlot) (s : State) (up : (s.port p).link = .up) :
    s.Stays (s.takeBids p bs) := by
  induction bs generalizing s with
  | nil => exact .refl s
  | cons b bs ih =>
    have calm := s.takeBid_calm p b up
    have first : s.Stays (eventEnd s (s.takeBid p b)) := .event fun d => (calm.did d).moving
    exact first.trans (ih _ (((eventEnd_calm calm).link p).trans up))

theorem State.cellArrives_stays (s : State) (p : PortId) (c : RawCell) : s.Stays (s.cellArrives p c) := by
  have moving (d : Did) := ((s.cellArrives_linkEvent p c).turns.did d).moving
  have flagged (h : IngressHeader) :
      s.Stays (s.updPort p fun P => { Port.takeFlags h P with failCount := 0 }) := .updPort s p (fun _ => rfl) fun _ => rfl
  generalize e : s.cellArrives p c = t at moving ⊢
  unfold State.cellArrives at e
  dsimp only at e
  split at e
  · subst e; exact .refl s
  · subst e; exact .refl s
  · subst e; exact .refl s
  · subst e; exact .ended moving
  · split_ifs at e <;> subst e <;> exact .ended moving
  · next up =>
    split_ifs at e
    · subst e
      have link : ((s.updPort p fun P => { Port.takeFlags (IngressHeader.read c.header) P with failCount := 0 }).port p).link =
          .up := by rw [State.updPort_port_self]; exact up
      refine (flagged _).trans ((State.takeBids_stays p _ _ link).trans (.event fun d => ?_))
      have taken := (State.takeBids_calm _ p (IngressHeader.read c.header).bids link).link p
      exact ((State.takeCell_calm _ p _ c (taken.trans link)).did d).moving
    · subst e; exact .ended moving
    · subst e; exact .ended moving

theorem State.upSlot_stays (s : State) (p : PortId) : s.Stays (s.upSlot p) := by
  have sent (t : State) (c : CellFields) (payload : Payload) : t.Stays (eventEnd t (t.assemble p c payload)) :=
    .event fun d => ((t.assemble_calm p c payload).did d).moving
  have turned (t : State) (r : Round) : t.Stays (t.updPort p fun P => { P with round := r }) :=
    .updPort t p (fun _ => rfl) fun _ => rfl
  unfold State.upSlot
  dsimp only
  split
  · generalize State.select _ p = x
    obtain ⟨choice, r⟩ := x
    cases choice with
    | none => exact (turned s _).trans ((turned _ r).trans (sent _ _ _))
    | some choice =>
      refine (turned s _).trans ((turned _ r).trans (State.Stays.trans (.event fun d => ?_) (sent _ _ _)))
      exact ((State.depart_calm _ p choice).did d).moving
  · exact (turned s _).trans (sent _ _ _)

theorem State.slotOpens_stays (s : State) (p : PortId) : s.Stays (s.slotOpens p) := by
  have sends (x : Sent) : s.Stays (s.send p x) := .updPort s p (fun _ => rfl) fun _ => rfl
  unfold State.slotOpens
  split
  · exact s.upSlot_stays p
  · exact sends _
  · exact sends _
  · exact sends _
  · exact sends _
  · obtain ⟨u, x, e, -⟩ := s.testSlot_eq p
    rw [e]
    exact .updPort s p (fun _ => rfl) fun _ => rfl

theorem State.arbitrate_stays (s : State) (d : Did) (c : GClass) : s.Stays (s.arbitrate d c) := by
  refine .of (fun e => ((s.arbitrate_calm d c).did e).moving) fun e => ?_
  unfold State.arbitrate
  split
  · exact id
  · next bid _ =>
    rw [State.drained_iff, State.drained_iff, s.issueGrant_ledger]
    rintro ⟨queue, grant, outbox, owed⟩
    dsimp only at grant outbox
    have apart : d ≠ e := by
      rintro rfl
      have issued := grant bid.src c
      rw [put_self] at issued
      cases issued
    refine ⟨queue, fun p g => ?_, fun p x hx => ?_, owed⟩
    · rw [← grant p g, put_ne _ _ fun same => apart (congrArg Prod.fst same.2).symm]
    · by_cases hp : p = bid.src
      · subst hp
        have boxed := outbox bid.src
        rw [Function.update_self, outboxPlace_eq] at boxed
        split_ifs at boxed
        · have moved := boxed _ (List.mem_map_of_mem hx)
          split_ifs at moved <;> exact moved
        · exact boxed x (List.mem_append_left _ hx)
      · have boxed := outbox p
        rw [Function.update_of_ne hp] at boxed
        exact boxed x hx

theorem State.placeElement_stays (s : State) (p : PortId) (f : Frame) : s.Stays (s.placeElement p f) :=
  .ofNotice (s.placeElement_keeps p f)

theorem State.setUnit_stays (s : State) (u : CmdUnit) : s.Stays { s with cmdUnit := u } :=
  .of (fun _ => id) fun _ => id

theorem State.offerHeld_stays (s : State) : s.Stays s.offerHeld := by
  unfold State.offerHeld
  split
  · exact .refl s
  · refine iteInduction (motive := fun t => s.Stays t) (fun _ => s.setUnit_stays _) fun _ => ?_
    exact iteInduction (motive := fun t => s.Stays t)
      (fun _ => (s.placeElement_stays _ _).trans (State.setUnit_stays _ _)) fun _ => .refl s

theorem State.forceMove_moving (s : State) (d e : Did) (moving : ((s.forceMove d).did e).map.isMoving = true) :
    (s.did e).map.isMoving = true := by
  by_cases he : e = d
  · subst he
    unfold State.forceMove at moving
    split at moving
    · next h => rw [h]; rfl
    · exact moving
  · exact ((s.forceMove_remaps d).did e he).moving moving

/-! ### Commands -/

theorem State.offerResponse_stays (s : State) (p : PortId) (f : Frame) : s.Stays (s.offerResponse p f) := by
  obtain ⟨-, e⟩ | ⟨-, -, e⟩ | ⟨-, -, e⟩ := s.offerResponse_cases p f <;> rw [e]
  · exact .refl s
  · exact s.placeElement_stays p f
  · exact s.setUnit_stays _

theorem State.takeCommand_stays (s : State) (cmd : CmdCell) (rest : List CmdCell) : s.Stays (s.takeCommand cmd rest) := by
  have books : (s.takeCommand cmd rest).ledger = { s.ledger.release cmd.src with cmdQueue := rest } := by
    change { (s.releaseCredit cmd.src).ledger with cmdQueue := rest } = _
    rw [s.releaseCredit_ledger]
  exact .ofLedger (fun d => ((s.takeCommand_calm cmd rest).did d).moving) (by rw [books]; rfl) (by rw [books]; rfl) (by rw [books]; rfl)
    (by rw [books]; rfl)

theorem State.applyPoolSet_stays (s : State) (cmd : CmdCell) : s.Stays (s.applyPoolSet cmd) := by
  have books := s.applyPoolSet_ledger cmd
  have dids := s.applyPoolSet_did cmd
  generalize s.applyPoolSet cmd = t at books dids
  refine .ofLedger (fun d => ?_) ?_ ?_ ?_ ?_
  · rw [dids]
    exact id
  all_goals rw [books]

theorem State.doPoolSet_stays (s : State) (cmd : CmdCell) : s.Stays (doPoolSet cmd s).state := by
  rw [doPoolSet_eq cmd s rfl rfl]
  split_ifs
  · exact .refl s
  · exact .refl s
  · exact .refl s
  · exact s.applyPoolSet_stays cmd

/-- The entry that MAP-SET writes is not MOVING (R144). -/
theorem State.applyMapSet_stays (s : State) (d : Did) {m : DidMap} (still : m.isMoving = false) :
    s.Stays (s.applyMapSet d m) := by
  have written : s.Keeps .event (s.setMap d m) := .updDid _ _ _ fun _ => rfl
  have kept : s.Keeps .event (s.applyMapSet d m) := written.trans ((State.rejudgeBids_keeps _ d).trans
    ((State.mapTrainsOf_keeps _ d fun _ => .idle).trans (State.mcForget_keeps _ d)))
  refine .of (fun e moving => ?_) fun e => by rw [kept.drained_of_event]; exact id
  by_cases he : e = d
  · subst he
    have calm := (State.rejudgeBids_calm (s.setMap e m) e).trans
      ((State.mapTrainsOf_calm _ e fun _ => .idle).trans (State.mcForget_calm _ e))
    have entered := (calm.did e).moving moving
    rw [State.setMap, State.updDid_did, if_pos rfl] at entered
    exact absurd (still.symm.trans entered) Bool.false_ne_true
  · exact ((s.applyMapSet_remaps d m).did e he).moving moving

theorem givenMap_still {cmd : CmdCell} {m : DidMap} (h : givenMap cmd = some m) : m.isMoving = false := by
  unfold givenMap at h
  split_ifs at h
  · obtain ⟨port, -, rfl⟩ := Option.map_eq_some_iff.1 h
    rfl
  · cases h
    rfl

theorem State.doMapSet_stays (s : State) (cmd : CmdCell) : s.Stays (doMapSet cmd s).state := by
  refine withValue_relates (.refl s) _ fun d => ?_
  cases given : givenMap cmd with
  | none => exact .refl s
  | some m =>
    change s.Stays (if (s.did d).map.isMoving then Reply.refuse .busy s
      else if s.drained d then .accept false [] (s.applyMapSet d m) else .refuse .inUse s).state
    split_ifs
    · exact .refl s
    · exact s.applyMapSet_stays d (givenMap_still given)
    · exact .refl s

theorem State.countDid_stays (s : State) (d : Did) (f : DidCounters → DidCounters) : s.Stays (s.countDid d f) :=
  .same (fun e => ((s.countDid_calm d f).did e).moving) (s.countDid_ledger d f)

theorem State.doCountersRead_stays (s : State) (cmd : CmdCell) : s.Stays (doCountersRead cmd s).state := by
  have value {α : Type} (x : Option α) {k : α → Reply} (hk : ∀ a, s.Stays (k a).state) : s.Stays (withValue x s k).state :=
    withValue_relates (.refl s) x hk
  unfold doCountersRead
  dsimp only
  split
  · exact value _ fun p => iteInduction (motive := fun t => s.Stays t)
      (fun _ => .updPort s p (fun _ => rfl) fun _ => rfl) fun _ => .refl s
  · exact value _ fun d => iteInduction (motive := fun t => s.Stays t) (fun _ => s.countDid_stays d _) fun _ => .refl s
  · exact iteInduction (motive := fun t => s.Stays t) (fun _ => .of (fun _ => id) fun _ => id) fun _ => .refl s
  · exact .refl s

/-- What each command of the command unit asks, but FABRIC-RESET and MAP-MOVE. -/
theorem Code.judge_stays {code : Code} (h : code ≠ .mapMove) (cmd : CmdCell) (s : State) :
    s.Stays (code.judge cmd s).state := by
  have value {α : Type} (x : Option α) {k : α → Reply} (hk : ∀ a, s.Stays (k a).state) : s.Stays (withValue x s k).state :=
    withValue_relates (.refl s) x hk
  cases code
  case portSet =>
    refine value _ fun p => ?_
    split_ifs
    · exact .refl s
    · exact .refl s
    · exact .refl s
    · obtain ⟨turned, -⟩ := s.applyPortSet_event p cmd _ rfl
      exact .ended fun d => (turned.did d).moving
  case classSet => exact .of (fun _ => id) fun _ => id
  case poolSet => exact s.doPoolSet_stays cmd
  case mapSet => exact s.doMapSet_stays cmd
  case mapMove => exact absurd rfl h
  case groupSet => exact value _ fun _ => .of (fun _ => id) fun _ => id
  case noticeExpect =>
    refine value _ fun p => ?_
    dsimp only [Reply.accept]
    exact .updPort s p (fun _ => rfl) fun _ => rfl
  case noticeRead =>
    refine .same (fun d => ?_) ?_
    · change ((State.mapDids _ _).did d).map.isMoving = true → _
      rw [State.mapDids_did, State.mapPorts_did]
      exact id
    · exact (State.mapDids_unbooked _ fun _ => rfl).trans (s.mapPorts_unbooked fun _ => rfl)
  case countersRead => exact s.doCountersRead_stays cmd
  case testStart =>
    refine value _ fun p => value _ fun gen => value _ fun chk => value _ fun base => ?_
    split_ifs
    · exact .refl s
    · obtain ⟨turned, -⟩ := s.startTest_event p _ _ rfl
      exact .ended fun d => (turned.did d).moving
  case testStop => exact value _ fun p => .linkEvent (s.stopTest_linkEvent p)
  case linesSet => exact value _ fun _ => value _ fun _ => .of (fun _ => id) fun _ => id
  case lifetimeSet => exact .of (fun _ => id) fun _ => id
  case portGet | mapGet | groupGet | testRead => exact value _ fun _ => .refl s
  case identify | fabricReset => exact .refl s

theorem doMapMove_moveLaw (cmd : CmdCell) {s : State} (hs : s.MoveLaw) : (doMapMove cmd s).state.MoveLaw := by
  refine withValue_relates (R := fun _ t => t.MoveLaw) hs _ fun d => withValue_relates (R := fun _ t => t.MoveLaw) hs _ fun target => ?_
  split
  · exact hs
  · exact hs
  · exact (noticeStep_stays s _).moveLaw (State.startMove_moveLaw hs d _ target _)

theorem DidState.fabricReset_settled (D : DidState) : D.fabricReset.map.isMoving = false := by
  unfold DidState.fabricReset
  cases D.map <;> rfl

theorem execFabricReset_moveLaw {s t : State} (h : execFabricReset s = .next t) (hs : s.MoveLaw) : t.MoveLaw := by
  cases h
  split
  · next cmd rest _ queue =>
    refine iteInduction (motive := State.MoveLaw) (fun _ => ?_) fun _ => hs
    have taken := (s.takeCommand_stays cmd rest).moveLaw hs
    refine iteInduction (motive := State.MoveLaw) (fun _ => ?_)
      fun _ => (State.offerResponse_stays _ _ _).moveLaw taken
    refine (noticeStep_stays _ (s.takeCommand cmd rest).emptied).moveLaw fun d moving => ?_
    rw [State.emptied_did, DidState.fabricReset_settled] at moving
    cases moving
  · exact hs

/-- A step of the command unit (R159). -/
theorem commandStep_moveLaw {judge : CmdCell → State → Reply} (h : ∀ cmd u, State.MoveLaw u → (judge cmd u).state.MoveLaw)
    (want : Option Code) {s : State} (hs : s.MoveLaw) : (commandStep want judge s).MoveLaw := by
  obtain e | ⟨cmd, rest, -, -, -, e⟩ := commandStep_cases want judge s <;> rw [e]
  · exact hs
  · exact (State.offerResponse_stays _ _ _).moveLaw (h cmd _ ((s.takeCommand_stays cmd rest).moveLaw hs))

theorem judgeCommand_moveLaw (code : Code) (cmd : CmdCell) {s : State} (hs : s.MoveLaw) :
    (judgeCommand cmd code.judge s).state.MoveLaw := by
  unfold judgeCommand
  split_ifs
  · by_cases moves : code = .mapMove
    · subst moves
      exact doMapMove_moveLaw cmd hs
    · exact (Code.judge_stays moves cmd s).moveLaw hs
  · exact hs

theorem exec_moveLaw (c : Instr) {s t : State} (h : exec c s = .next t) (hs : s.MoveLaw) : t.MoveLaw := by
  have unit (code : Code) : (commandStep (some code) (fun x u => judgeCommand x code.judge u) s).MoveLaw :=
    commandStep_moveLaw (fun cmd _ => judgeCommand_moveLaw code cmd) _ hs
  cases c
  case fabricReset => exact execFabricReset_moveLaw h hs
  all_goals cases h
  case deviceReset straps =>
    obtain ⟨-, -, -, -, -, -, -, -, law, -⟩ := resetMeetsEveryLaw
    exact law
  case ingressCell p c => exact (s.cellArrives_stays p c).moveLaw hs
  case slip p k => exact (State.Stays.linkEvent (s.slips_linkEvent p k)).moveLaw hs
  case stuckLineAssert p bits | stuckBlockEnd p bits => exact (s.takeStuckBits_stays p bits).moveLaw hs
  case qualityCompletion p fig => exact (State.Stays.linkEvent (s.qualityCompletes_linkEvent p fig)).moveLaw hs
  case slot p => exact (s.slotOpens_stays p).moveLaw hs
  case checkerSync p bits | testBlockEnd p bits | timebaseCompletion p bits =>
    exact (s.takeTestBits_stays p bits).moveLaw hs
  case grantIssue d g => exact (s.arbitrate_stays d g).moveLaw hs
  case grantExpiry p d g =>
    obtain ⟨n, calm⟩ := s.expire_calm p d g
    exact (State.Stays.event fun e => (calm.did e).moving).moveLaw hs
  case owedMarkerService => exact (State.Stays.event fun d => (s.serveOwed_calm.did d).moving).moveLaw hs
  case drainedCutover d => exact ((s.judgeDrain_stays d).trans (noticeStep_stays s _)).moveLaw hs
  case moveDeadline d =>
    exact (State.Stays.event (s.forceMove_moving d)).moveLaw hs
  case heldResponseOffer => exact s.offerHeld_stays.moveLaw hs
  case identify => exact unit .identify
  case portSet => exact unit .portSet
  case portGet => exact unit .portGet
  case classSet => exact unit .classSet
  case poolSet => exact unit .poolSet
  case lifetimeSet => exact unit .lifetimeSet
  case mapSet => exact unit .mapSet
  case mapMove => exact unit .mapMove
  case mapGet => exact unit .mapGet
  case groupSet => exact unit .groupSet
  case groupGet => exact unit .groupGet
  case noticeExpect => exact unit .noticeExpect
  case noticeRead => exact unit .noticeRead
  case countersRead => exact unit .countersRead
  case testStart => exact unit .testStart
  case testStop => exact unit .testStop
  case testRead => exact unit .testRead
  case linesSet => exact unit .linesSet
  case badCommand => exact commandStep_moveLaw (fun _ _ hu => hu) none hs

theorem moveLaw_kept : KeptByEveryStep State.MoveLaw := by
  intro s t hs h
  obtain ⟨c, rest, -, e⟩ | ⟨-, c, -, e⟩ | ⟨-, -, e⟩ := step_cases s <;> rw [e] at h
  · exact exec_moveLaw c h (s := { s with pending := rest }) hs
  · exact exec_moveLaw c h hs
  · cases h
    exact hs

/-! ### The bounds -/

/-- Settles O5: each bound is an invariant of the entries of the books, and the end of an event cuts over the DIDs it
drained. -/
theorem boundsAreKept : Obligations.BoundsAreKept := by
  have bounds := Ledger.Credit.lasting.and (Ledger.Elements.lasting.and (Ledger.Lists.lasting.and Ledger.Pool.lasting))
  refine ⟨fun s t => ?_, moveLaw_kept, fun s t => ?_⟩
  · simp only [State.creditLaw_iff, State.elementLaw_iff, State.listLaw_iff, State.poolLaw_iff]
    exact bounds.kept s t
  · simp only [State.holdLaw_iff]
    exact Ledger.Hold.lasting.kept s t

end Sys2Proof.Machine
end

section
/-! PROOFS. The settings stay in range (O6, first part): each is written by its own command alone, which clamps or judges
it (R61, R162, R164). -/

namespace Sys2Proof.Machine

/-! ### What leaves the settings -/

theorem State.SettingsLaw.of {s t : State} (law : s.SettingsLaw)
    (settings : ∀ p, (t.port p).settings = (s.port p).settings) (classes : t.classes = s.classes)
    (lifetime : t.lifetime = s.lifetime) (pool : t.poolSize = s.poolSize) (on : t.holdOn = s.holdOn)
    (off : t.holdOff = s.holdOff) (floor : ∀ d, (t.did d).floor = (s.did d).floor) : t.SettingsLaw := by
  have shared : t.sharedPool = s.sharedPool := by
    unfold State.sharedPool State.floorSum
    rw [pool]
    simp only [floor]
  have reports : t.reportPorts = s.reportPorts := by
    unfold State.reportPorts
    simp only [settings]
  unfold State.SettingsLaw
  rw [classes, lifetime, pool, on, off, shared, reports]
  simp only [settings, floor]
  exact law

theorem State.SettingsLaw.calm {s t : State} (law : s.SettingsLaw) (h : s.Calm t) : t.SettingsLaw :=
  law.of (fun p => (congrArg Port.settings (h.port p) :)) (congrArg State.classes h.rest :)
    (congrArg State.lifetime h.rest :) (congrArg State.poolSize h.rest :) (congrArg State.holdOn h.rest :)
    (congrArg State.holdOff h.rest :) fun d => (h.did d).1

/-- A command that writes no setting. -/
theorem State.SettingsLaw.settled {s t : State} {c : Instr} (law : s.SettingsLaw) (h : s.Settled c t)
    (others : c ∉ [.portSet, .classSet, .lifetimeSet, .poolSet]) : t.SettingsLaw := by
  simp only [List.mem_cons, List.not_mem_nil, or_false, not_or] at others
  obtain ⟨port, cls, life, pool⟩ := others
  obtain ⟨size, on, off⟩ := h.pool pool
  exact law.of (h.settings port) (h.classes cls) (h.lifetime life) size on off (h.floor pool)

/-! ### What writes them -/

theorem clampNat_range {lo hi : Nat} (h : lo ≤ hi) (n : Nat) : lo ≤ clampNat lo hi n ∧ clampNat lo hi n ≤ hi := by
  unfold clampNat
  omega

theorem clampPool_range (n : Nat) : clampPool n ≤ 8192 ∧ clampPool n % 64 = 0 := by
  unfold clampPool
  omega

theorem classFrom_inRange (cmd : CmdCell) (i : Nat) : (classFrom cmd i).InRange := by
  obtain ⟨least, most⟩ := clampNat_range (lo := 1) (hi := 64) (by decide) (cmd.param i).toNat
  obtain ⟨some, heavy⟩ := clampNat_range (lo := 1) (hi := 15) (by decide) (cmd.param (i + 2)).toNat
  obtain ⟨-, limit⟩ := clampNat_range (lo := 0) (hi := 1024) (by decide) (cmd.param (i + 3)).toNat
  have exponent : -3 ≤ clampInt (-3) 3 (cmd.param (i + 1)).toInt ∧ clampInt (-3) 3 (cmd.param (i + 1)).toInt ≤ 3 := by
    unfold clampInt
    omega
  exact ⟨least, most, exponent.1, exponent.2, some, heavy, limit⟩

theorem State.SettingsLaw.classSet {s : State} (law : s.SettingsLaw) (cmd : CmdCell) :
    ({ s with classes := ⟨classFrom cmd 1, classFrom cmd 5, classFrom cmd 9⟩ } : State).SettingsLaw := by
  obtain ⟨ports, -, -, -, rest⟩ := law
  exact ⟨ports, classFrom_inRange cmd 1, classFrom_inRange cmd 5, classFrom_inRange cmd 9, rest⟩

theorem State.SettingsLaw.lifetimeSet {s : State} (law : s.SettingsLaw) (n : Nat) :
    ({ s with lifetime := clampNat 2 250 n } : State).SettingsLaw := by
  obtain ⟨ports, c1, c2, c3, -, -, rest⟩ := law
  obtain ⟨least, most⟩ := clampNat_range (lo := 2) (hi := 250) (by decide) n
  exact ⟨ports, c1, c2, c3, least, most, rest⟩

theorem State.SettingsLaw.poolSet {s : State} (law : s.SettingsLaw) (cmd : CmdCell)
    (large : ¬ sharedPoolOf (clampPool (cmd.param 1).toNat) (newFloorSum cmd) < 1024) : (s.applyPoolSet cmd).SettingsLaw := by
  have port (p : PortId) : (s.applyPoolSet cmd).port p = s.port p := State.port_congr (s.applyPoolSet_ports cmd) p
  have floor (d : Did) : ((s.applyPoolSet cmd).did d).floor = newFloor cmd d := by rw [State.applyPoolSet_did]
  have shared := s.applyPoolSet_sharedPool cmd
  have classes : (s.applyPoolSet cmd).classes = s.classes := by simp only [State.applyPoolSet, State.judgeHold, State.mapDids]
  have lifetime : (s.applyPoolSet cmd).lifetime = s.lifetime := by simp only [State.applyPoolSet, State.judgeHold, State.mapDids]
  have size : (s.applyPoolSet cmd).poolSize = clampPool (cmd.param 1).toNat := by simp only [State.applyPoolSet, State.judgeHold]
  have on : (s.applyPoolSet cmd).holdOn = clampNat 0 8192 (cmd.param 2).toNat := by simp only [State.applyPoolSet, State.judgeHold]
  have off : (s.applyPoolSet cmd).holdOff = clampNat 0 8192 (cmd.param 3).toNat := by simp only [State.applyPoolSet, State.judgeHold]
  generalize s.applyPoolSet cmd = t at port floor shared classes lifetime size on off ⊢
  have reports : t.reportPorts = s.reportPorts := by
    unfold State.reportPorts
    simp only [port]
  obtain ⟨small, whole⟩ := clampPool_range (cmd.param 1).toNat
  have hold (n : Nat) := (clampNat_range (Nat.zero_le 8192) n).2
  obtain ⟨ports, c1, c2, c3, young, old, -, -, -, -, -, -, few⟩ := law
  unfold State.SettingsLaw
  rw [classes, lifetime, size, on, off, shared, reports]
  simp only [port, floor]
  exact ⟨ports, c1, c2, c3, young, old, small, whole, hold _, hold _, fun d => (clampNat_range (Nat.zero_le 512) _).2,
    Int.not_lt.1 large, few⟩

theorem newSettings_inRange {cmd : CmdCell} (good : badCadence cmd = false) {o : Settings} (h : o.InRange) :
    (newSettings cmd o).InRange := by
  obtain ⟨n, k, a, d, least, top⟩ := h
  have pick {i : Nat} {x y hi : Nat} (hx : x ≤ hi) (hy : y ≤ hi) : cmd.pick i x y ≤ hi := by
    unfold CmdCell.pick
    split_ifs
    · exact hy
    · exact hx
  have clamped {hi : Nat} (x : Nat) : clampNat 0 hi x ≤ hi := (clampNat_range (Nat.zero_le hi) x).2
  have cadence : 1 ≤ (newSettings cmd o).cadence.length ∧ (newSettings cmd o).cadence.length ≤ 16 := by
    unfold newSettings CmdCell.pick
    dsimp only
    split_ifs with named
    · have given : ¬ ((cmd.param 12).toNat = 0 ∨ 16 < (cmd.param 12).toNat) := fun bad =>
        Bool.eq_false_iff.1 good ((badCadence_iff cmd).2 ⟨named, bad⟩)
      rw [cadenceOf_length]
      omega
    · exact ⟨least, top⟩
  exact ⟨pick n (clamped _), pick k (clamped _), pick a (clamped _), pick d (clamped _), cadence.1, cadence.2⟩

/-- At most one port more than the others reports. -/
theorem reports_le (f : PortId → Bool) (p : PortId) :
    (allPorts.filter f).length ≤ ((allPorts.filter f).filter fun q => !decide (q = p)).length + 1 := by
  have nodup : (allPorts.filter f).Nodup := (List.nodup_finRange 24).filter f
  have erased := nodup.erase_eq_filter p
  have same : ((allPorts.filter f).filter fun q => !decide (q = p)) = (allPorts.filter f).erase p := by
    rw [erased]
    refine List.filter_congr fun q _ => ?_
    rfl
  rw [same, List.length_erase]
  split_ifs <;> omega

/-- Port `p` reports as before, or two other ports at most do (R164). -/
theorem State.reports_few {s t : State} {p : PortId}
    (others : ∀ q, q ≠ p → (t.port q).settings.report = (s.port q).settings.report) (two : s.reportPorts.length ≤ 2)
    (own : (t.port p).settings.report = true → (s.port p).settings.report = true ∨
      (s.reportPorts.filter fun q => !decide (q = p)).length ≤ 1) : t.reportPorts.length ≤ 2 := by
  have same : (t.reportPorts.filter fun q => !decide (q = p)) = s.reportPorts.filter fun q => !decide (q = p) := by
    unfold State.reportPorts
    rw [List.filter_filter, List.filter_filter]
    refine List.filter_congr fun q _ => ?_
    by_cases h : q = p
    · subst h; simp
    · rw [others q h]
  have more := reports_le (fun q => (t.port q).settings.report) p
  by_cases few : (s.reportPorts.filter fun q => !decide (q = p)).length ≤ 1
  · have counted : t.reportPorts.length ≤ (t.reportPorts.filter fun q => !decide (q = p)).length + 1 := more
    rw [same] at counted
    omega
  · have kept : ∀ q, (t.port q).settings.report = true → (s.port q).settings.report = true := by
      intro q h
      by_cases hq : q = p
      · subst hq
        exact (own h).resolve_right few
      · rwa [← others q hq]
    exact (List.monotone_filter_right allPorts kept).length_le.trans two

/-- A PORT-SET that is not refused makes no third port report (R164). -/
theorem newSettings_report {cmd : CmdCell} {p : PortId} {s : State} (few : tooManyReports cmd p s = false)
    (on : (newSettings cmd (s.port p).settings).report = true) : (s.port p).settings.report = true ∨
      (s.reportPorts.filter fun q => !decide (q = p)).length ≤ 1 := by
  unfold newSettings CmdCell.pick at on
  dsimp only at on
  split_ifs at on with named
  · unfold tooManyReports at few
    rw [named, on, Bool.true_and, Bool.true_and, decide_eq_false_iff_not] at few
    exact .inr (Nat.le_of_lt_succ (Nat.lt_of_not_le few))
  · exact .inl on

theorem State.applyPortSet_settings (s : State) (p : PortId) (cmd : CmdCell) (q : PortId) :
    ((eventEnd s (s.applyPortSet p cmd)).port q).settings =
      if q = p then newSettings cmd (s.port p).settings else (s.port q).settings := by
  rw [(eventEnd_keeps s _).portField Port.settings (fun _ => rfl)]
  obtain ⟨turned, hp⟩ := s.applyPortSet_turns p cmd
  split_ifs with h
  · subst h
    have judged : ((s.applyPortSet q cmd).port q).settings = ((s.port q).setBy cmd).judged.settings :=
      (congrArg Port.settings hp :)
    rw [judged, (Port.judged_same _).1.settings, (Port.setBy_same cmd _).1]
  · exact (congrArg Port.settings (turned.port q h) :)

theorem State.SettingsLaw.portSet {s : State} (law : s.SettingsLaw) {p : PortId} {cmd : CmdCell}
    (good : badCadence cmd = false) (few : tooManyReports cmd p s = false) :
    (eventEnd s (s.applyPortSet p cmd)).SettingsLaw := by
  have settings := s.applyPortSet_settings p cmd
  obtain ⟨turned, -⟩ := s.applyPortSet_event p cmd _ rfl
  have rest := turned.rest
  have floor (d : Did) := (turned.did d).1
  generalize eventEnd s (s.applyPortSet p cmd) = t at settings rest floor ⊢
  obtain ⟨ports, c1, c2, c3, young, old, small, whole, on, off, floors, large, reports⟩ := law
  have size : t.poolSize = s.poolSize := (congrArg State.poolSize rest :)
  have classes : t.classes = s.classes := (congrArg State.classes rest :)
  have lifetime : t.lifetime = s.lifetime := (congrArg State.lifetime rest :)
  have holdOn : t.holdOn = s.holdOn := (congrArg State.holdOn rest :)
  have holdOff : t.holdOff = s.holdOff := (congrArg State.holdOff rest :)
  have shared : t.sharedPool = s.sharedPool := by
    unfold State.sharedPool State.floorSum
    rw [size]
    simp only [floor]
  have others (q : PortId) (h : q ≠ p) : (t.port q).settings = (s.port q).settings := by rw [settings, if_neg h]
  unfold State.SettingsLaw
  rw [shared, classes, lifetime, size, holdOn, holdOff]
  simp only [floor]
  refine ⟨fun q => ?_, c1, c2, c3, young, old, small, whole, on, off, floors, large, ?_⟩
  · rw [settings]
    split_ifs
    · exact newSettings_inRange good (ports p)
    · exact ports q
  · exact State.reports_few (fun q h => congrArg Settings.report (others q h)) reports (by
      rw [settings, if_pos rfl]
      exact newSettings_report few)

/-! ### Every step -/

theorem withValue_settingsLaw {α : Type} {s : State} (law : s.SettingsLaw) (x : Option α) {k : α → Reply}
    (h : ∀ a, (k a).state.SettingsLaw) : (withValue x s k).state.SettingsLaw :=
  withValue_relates (R := fun _ t => t.SettingsLaw) law x h

theorem doPortSet_settingsLaw (cmd : CmdCell) {s : State} (law : s.SettingsLaw) :
    (doPortSet cmd s).state.SettingsLaw := by
  refine withValue_settingsLaw law _ fun p => ?_
  split_ifs with _ bad many
  · exact law
  · exact law
  · exact law
  · exact law.portSet (Bool.eq_false_iff.2 bad) (Bool.eq_false_iff.2 many)

theorem doPoolSet_settingsLaw (cmd : CmdCell) {s : State} (law : s.SettingsLaw) :
    (doPoolSet cmd s).state.SettingsLaw := by
  rw [doPoolSet_eq cmd s rfl rfl]
  split_ifs with small
  · exact law
  · exact law
  · exact law
  · exact law.poolSet cmd small

/-- A step of the command unit, by its judgement (R159). -/
theorem commandStep_settingsLaw {judge : CmdCell → State → Reply}
    (h : ∀ (cmd : CmdCell) {u : State}, u.SettingsLaw → (judge cmd u).state.SettingsLaw) (want : Option Code) {s : State}
    (law : s.SettingsLaw) : (commandStep want (fun c t => judgeCommand c judge t) s).SettingsLaw :=
  commandStep_relates (R := fun s t => s.SettingsLaw → t.SettingsLaw) (fun calm hs => hs.calm calm)
    (fun h k hs => k (h hs)) (fun cmd _ hu => h cmd hu) want s law

theorem exec_settingsLaw (c : Instr) {s t : State} (h : exec c s = .next t) (law : s.SettingsLaw) : t.SettingsLaw := by
  by_cases own : c ∈ [.portSet, .classSet, .lifetimeSet, .poolSet]
  · simp only [List.mem_cons, List.not_mem_nil, or_false] at own
    obtain rfl | rfl | rfl | rfl := own <;> cases h
    · exact commandStep_settingsLaw (fun cmd _ => doPortSet_settingsLaw cmd) _ law
    · exact commandStep_settingsLaw (fun cmd _ hu => hu.classSet cmd) _ law
    · exact commandStep_settingsLaw (fun cmd _ hu => hu.lifetimeSet _) _ law
    · exact commandStep_settingsLaw (fun cmd _ => doPoolSet_settingsLaw cmd) _ law
  · by_cases reset : ∃ straps, c = .deviceReset straps
    · obtain ⟨straps, rfl⟩ := reset
      cases h
      exact State.reset_settingsLaw
    · exact law.settled (exec_settled c (fun straps e => reset ⟨straps, e⟩) h) own

theorem settingsLaw_kept : KeptByEveryStep State.SettingsLaw := by
  intro s t law h
  obtain ⟨c, rest, -, e⟩ | ⟨-, c, -, e⟩ | ⟨-, -, e⟩ := step_cases s <;> rw [e] at h
  · exact exec_settingsLaw c h (s := { s with pending := rest }) law
  · exact exec_settingsLaw c h law
  · cases h
    exact law

end Sys2Proof.Machine
end

section
/-! PROOFS. The rounds, monitors and pattern units stay in their ranges (O6, second part). -/

namespace Sys2Proof.Machine

open Function (update)

/-- Round states, stuck-line monitors and pattern units in range, with the weights and cadences that start rounds (R31,
R112, R183). -/
structure Ledger.Ranges (b : Ledger) : Prop where
  weights : ∀ c, (b.classes.get c).weight ≤ 15
  least : ∀ p, 1 ≤ (b.cadence p).length
  top : ∀ p, (b.cadence p).length ≤ 16
  round : ∀ p, (b.round p).InRange
  monitors : ∀ p, MonitorsInRange (b.link p) (b.stuck p) (b.test p)

theorem State.ranges_iff {s : State} (law : s.SettingsLaw) : s.ledger.Ranges ↔ s.RangeLaw := by
  obtain ⟨ports, ⟨-, -, -, -, -, w1, -⟩, ⟨-, -, -, -, -, w2, -⟩, ⟨-, -, -, -, -, w3, -⟩, -⟩ := law
  constructor
  · intro h p
    obtain ⟨stuck, unit, running, search⟩ := h.monitors p
    exact ⟨h.round p, stuck, unit, running, search⟩
  · intro h
    refine ⟨fun c => ?_, fun p => ?_, fun p => ?_, fun p => (h p).1, fun p => ?_⟩
    · cases c
      · exact w1
      · exact w2
      · exact w3
    · obtain ⟨-, -, -, -, least, -⟩ := ports p
      exact least
    · obtain ⟨-, -, -, -, -, top⟩ := ports p
      exact top
    · obtain ⟨-, stuck, unit, running, search⟩ := h p
      exact ⟨stuck, unit, running, search⟩

theorem Ledger.Entry.ranges {ex : Did → Prop} {b c : Ledger} (e : Ledger.Entry ex b c) (h : b.Ranges) : c.Ranges := by
  cases e
  case monitorsTurned p l m u range up left =>
    refine { h with monitors := fun q => ?_ }
    by_cases hq : q = p
    · subst hq
      simp only [Function.update_self]
      exact range (h.monitors q)
    · simp only [Function.update_of_ne hq]
      exact h.monitors q
  case portRaised p untested =>
    refine { h with
      round := forall_update (P := fun _ => Round.InRange) h.round (Round.start_inRange (h.least p) (h.top p) h.weights)
      monitors := forall_update (P := fun q l => MonitorsInRange l (b.stuck q) (b.test q)) h.monitors
        ((h.monitors p).move (fun test => absurd test untested) nofun) }
  case roundTurned p r range =>
    exact { h with
      round := forall_update (P := fun _ => Round.InRange) h.round (range h.weights (h.least p) (h.top p) (h.round p)) }
  case cadenceSet p l least top =>
    exact { h with
      least := forall_update (P := fun _ (l : List Bool) => 1 ≤ l.length) h.least least
      top := forall_update (P := fun _ (l : List Bool) => l.length ≤ 16) h.top top }
  all_goals exact { h with }

theorem Port.fabricLink_monitors {P : Port} (h : MonitorsInRange P.link P.stuck P.test) :
    MonitorsInRange P.fabricLink.link P.stuck P.test := by
  obtain ⟨-, e⟩ | ⟨-, untested, e⟩ := P.fabricLink_cases <;> rw [e]
  · exact h
  · split_ifs
    · exact h.move (fun test => absurd test untested) nofun
    · exact h.move (fun test => absurd test untested) nofun

theorem classesFrom_weight (cmd : CmdCell) (c : GClass) :
    (PerG.get ⟨classFrom cmd 1, classFrom cmd 5, classFrom cmd 9⟩ c).weight ≤ 15 := by
  have weight (i : Nat) : (classFrom cmd i).weight ≤ 15 := (clampNat_range (lo := 1) (by decide) _).2
  cases c <;> exact weight _

theorem Ledger.Ranges.lasting : Ledger.Lasting Ledger.Ranges where
  entry _ _ _ e := e.ranges
  classes b cmd h := { h with weights := fun c => classesFrom_weight cmd c }
  pool s cmd _ _ h := by rw [s.applyPoolSet_ledger]; exact { h with }
  emptied s h := by
    rw [s.emptied_ledger]
    exact { h with monitors := fun p => Port.fabricLink_monitors (h.monitors p) }
  reset := (State.ranges_iff State.reset_settingsLaw).2 State.reset_rangeLaw

/-- Settles O6: settings are written by commands that clamp or judge them, and the rest is an invariant of the entries of
the books. -/
theorem settingsStayInRange : Obligations.SettingsStayInRange := by
  refine ⟨settingsLaw_kept, fun s t => ?_, fun s t ⟨settings, ranges⟩ h => ?_⟩
  · simp only [State.sharedPoolLaw_iff]
    exact Ledger.Shared.lasting.kept s t
  · have after := settingsLaw_kept s t settings h
    exact ⟨after, (State.ranges_iff after).1 (Ledger.Ranges.lasting.kept s t ((State.ranges_iff settings).2 ranges) h)⟩

end Sys2Proof.Machine
end

section
/-! PROOFS. What is down is bare (for O10): no entry of the books gives anything to a DID that is UNMAPPED or
destination-down (R105, R111, R140, R143). -/

namespace Sys2Proof.Machine

open Function (update)

variable {ex : Did → Prop} {b c : Ledger}

/-! ### The law in the books -/

def Ledger.Downs (b : Ledger) : Prop := ∀ d, ¬ b.Reachable d → b.Bare d

theorem State.destDownLaw_iff (s : State) : s.DestDownLaw ↔ s.ledger.Downs := by
  refine forall_congr' fun d => ?_
  rw [← Bool.not_eq_true, s.reachable_ledger]
  refine imp_congr_right fun _ => ⟨fun ⟨queue, bids, owed, ports⟩ => ?_, fun h => ?_⟩
  · exact ⟨queue, bids, owed, fun p => (ports p).1, fun p => (ports p).2.1, fun p => (ports p).2.2⟩
  · exact ⟨h.queue, h.bids, h.owed, fun p => ⟨h.grant p, h.train p, h.snapshot p⟩⟩

/-- No marker of a bare DID that is down may be made. -/
theorem Ledger.Bare.not_live {x : Did} (h : b.Bare x) (down : ¬ b.Reachable x) : ¬ b.Live x := by
  rintro (reach | ⟨p, k, train⟩ | ⟨p, k, snapshot⟩)
  · exact down reach
  · exact train (h.train p k)
  · rw [h.snapshot p k] at snapshot
    cases snapshot

/-! ### Entries -/

theorem put_other {β γ : Type} [DecidableEq β] (f : Did → β → γ) {d x : Did} (h : x ≠ d) (k k' : β) (v : γ) :
    put f d k v x k' = f x k' := put_ne f v fun same => h same.1

theorem put_row_other {γ : Type} (f : PortId → Did × GClass → γ) {d x : Did} (h : x ≠ d) (p q : PortId) (k k' : GClass)
    (v : γ) : put f p (d, k) v q (x, k') = f q (x, k') := put_ne f v fun same => h (congrArg Prod.fst same.2)

/-- A DID without entries in a queue is not the DID of one that has some. -/
theorem Ledger.Bare.apart {x d : Did} (h : b.Bare x) {k : Cls} {e : QEntry} {rest : List QEntry}
    (head : b.queue d k = e :: rest) : x ≠ d := by
  rintro rfl
  rw [h.queue k] at head
  cases head

/-- A DID without records is not the DID of one. -/
theorem Ledger.Bare.unrecorded {x d : Did} (h : b.Bare x) {p : PortId} {k : GClass} {g : GrantRec}
    (record : b.grant p (d, k) = some g) : x ≠ d := by
  rintro rfl
  rw [h.grant p k] at record
  cases record

theorem Ledger.Entry.bare (e : Ledger.Entry ex b c) {x : Did} (down : ¬ b.Reachable x) (h : b.Bare x) : c.Bare x := by
  have dead := h.not_live down
  have off {d : Did} (reach : b.Reachable d) : x ≠ d := fun same => down (same ▸ reach)
  have still {d : Did} (live : b.Live d) : x ≠ d := fun same => dead (same ▸ live)
  cases e
  case recordClosed p d g r record =>
    exact { h with grant := fun q k => (put_row_other _ (h.unrecorded record) _ _ _ _ _).trans (h.grant q k) }
  case recordCut p d g r n record _ _ =>
    exact { h with grant := fun q k => (put_row_other _ (h.unrecorded record) _ _ _ _ _).trans (h.grant q k) }
  case bidEntered p d g n reach _ _ _ =>
    exact { h with bids := fun k => (put_other _ (off reach) _ _ _).trans (h.bids k) }
  case bidsGone d g l sub _ =>
    refine { h with bids := fun k => ?_ }
    dsimp only
    rw [put_apply]
    split_ifs with same
    · obtain ⟨rfl, rfl⟩ := same
      rw [h.bids k] at sub
      exact List.sublist_nil.1 sub
    · exact h.bids k
  case sourceGone p =>
    refine { h with bids := fun k => ?_, grant := fun q k => ?_ }
    · dsimp only
      rw [h.bids k]
      rfl
    · exact forall_update (P := fun _ (row : Did × GClass → Option GrantRec) => row (x, k) = none) (fun q => h.grant q k) rfl q
  case grantIssued d g e q reach _ _ _ _ _ =>
    exact { h with
      bids := fun k => (put_other _ (off reach) _ _ _).trans (h.bids k)
      grant := fun q k => (put_row_other _ (off reach) _ _ _ _ _).trans (h.grant q k) }
  case grantsSent p n time =>
    refine { h with grant := fun q k => ?_ }
    refine forall_update (P := fun _ (row : Did × GClass → Option GrantRec) => row (x, k) = none) (fun q => h.grant q k) ?_ q
    rw [h.grant p k]
    rfl
  case cellGranted p d g r y reach _ =>
    exact { h with
      queue := fun k => (put_other _ (off reach) _ _ _).trans (h.queue k)
      bids := fun k => (put_other _ (off reach) _ _ _).trans (h.bids k)
      grant := fun q k => (put_row_other _ (off reach) _ _ _ _ _).trans (h.grant q k) }
  case cellLate p d g y reach _ _ =>
    exact { h with
      queue := fun k => (put_other _ (off reach) _ _ _).trans (h.queue k)
      bids := fun k => (put_other _ (off reach) _ _ _).trans (h.bids k) }
  case cellCredited d y reach _ =>
    exact { h with queue := fun k => (put_other _ (off reach) _ _ _).trans (h.queue k) }
  case cellStored g ds y live _ _ _ =>
    refine { h with queue := fun k => ?_ }
    dsimp only
    rw [if_neg fun same => still (live x same.1) rfl, h.queue k]
    rfl
  case markPlaced k live _ =>
    exact { h with queue := fun g => (put_other _ (still live) _ _ _).trans (h.queue g) }
  case markOwed k live _ _ =>
    refine { h with owed := fun m hm => ?_ }
    obtain hm | hm := List.mem_append.1 hm
    · exact h.owed m hm
    · rw [List.mem_singleton.1 hm]
      exact (still live).symm
  case owedGone l sub => exact { h with owed := fun m hm => h.owed m (sub.subset hm) }
  case cellLeaves d g y rest head =>
    exact { h with queue := fun k => (put_other _ (h.apart head) _ _ _).trans (h.queue k) }
  case creditLeaves d y rest head =>
    exact { h with queue := fun k => (put_other _ (h.apart head) _ _ _).trans (h.queue k) }
  case refLost d k n rest head _ =>
    exact { h with queue := fun g => (put_other _ (h.apart head) _ _ _).trans (h.queue g) }
  case refLast d k n rest m head _ _ =>
    exact { h with queue := fun g => (put_other _ (h.apart head) _ _ _).trans (h.queue g) }
  case refLeaves d k n rest m head _ _ =>
    exact { h with queue := fun g => (put_other _ (h.apart head) _ _ _).trans (h.queue g) }
  case markLeaves d k src mc rest l head served =>
    refine { h with queue := fun g => (put_other _ (h.apart head) _ _ _).trans (h.queue g), owed := fun m hm => ?_ }
    obtain ⟨-, rfl⟩ | ⟨-, rfl⟩ := served
    · cases hm
    · exact h.owed m hm
  case markServes d k src mc rest m l head sub reach _ =>
    refine { h with queue := fun g => ?_, owed := fun k hk => h.owed k (sub.subset (List.mem_cons_of_mem m hk)) }
    exact (put_other _ (off reach) _ _ _).trans ((put_other _ (h.apart head) _ _ _).trans (h.queue g))
  case trainsTurned train snapshot trains snapshots =>
    refine { h with train := fun p k => ?_, snapshot := fun p k => ?_ }
    · exact Classical.not_not.1 fun on => dead (trains p x k on)
    · exact Bool.eq_false_iff.2 fun on => dead (snapshots p k x on)
  all_goals exact { h with }

/-- A DID whose port stays in UP or out of it is reachable after an entry where it was before. -/
theorem Ledger.Entry.reachable (e : Ledger.Entry ex b c) {x : Did} (still : ¬ ex x) (h : b.Reachable x) :
    c.Reachable x := by
  obtain ⟨q, mapped, up⟩ := h
  cases e
  case monitorsTurned p l m u _ _ left =>
    refine ⟨q, mapped, ?_⟩
    by_cases hq : q = p
    · subst hq
      dsimp only
      rw [Function.update_self]
      exact Classical.not_not.1 fun down => still (left up down x mapped)
    · exact (Function.update_of_ne hq _ _).trans up
  case portRaised p _ =>
    refine ⟨q, mapped, ?_⟩
    by_cases hq : q = p
    · subst hq
      exact Function.update_self _ _ _
    · exact (Function.update_of_ne hq _ _).trans up
  case remapped d m moved =>
    have other : x ≠ d := by
      rintro rfl
      exact still moved
    exact ⟨q, (Function.update_of_ne other _ _).trans mapped, up⟩
  all_goals exact ⟨q, mapped, up⟩

theorem Ledger.Entry.downs (e : Ledger.Entry ex b c) (h : ∀ d, ¬ ex d → ¬ b.Reachable d → b.Bare d) (d : Did)
    (still : ¬ ex d) (down : ¬ c.Reachable d) : c.Bare d :=
  have before : ¬ b.Reachable d := fun up => down (e.reachable still up)
  e.bare before (h d still before)

/-! ### Every step -/

theorem State.Event.downs {s t : State} (e : s.Event t) (h : s.ledger.Downs) : t.ledger.Downs := by
  obtain ⟨ex, booked, settled⟩ := e
  have others := booked.keeps (law := fun b => ∀ d, ¬ ex d → ¬ b.Reachable d → b.Bare d) (fun b c e => e.downs)
    fun d _ => h d
  intro d down
  by_cases moved : ex d
  · exact settled d moved down
  · exact others d moved down

theorem State.Turn.downs {s t : State} (turn : s.Turn t) (h : s.ledger.Downs) : t.ledger.Downs := by
  cases turn with
  | event e => exact e.downs h
  | classes cmd => exact fun d down => { h d down with }
  | pool cmd _ _ =>
    rw [s.applyPoolSet_ledger]
    exact fun d down => { h d down with }
  | emptied =>
    rw [s.emptied_ledger]
    refine fun d _ => ⟨fun _ => rfl, fun _ => rfl, nofun, fun _ _ => rfl, fun _ _ => rfl, fun _ _ => ?_⟩
    simp [DidSet.has]
  | reset straps pending =>
    rw [State.ledger_straps]
    obtain ⟨-, -, -, -, -, -, -, down, -⟩ := resetMeetsEveryLaw
    exact (State.destDownLaw_iff _).1 down

theorem downs_kept : KeptByEveryStep State.DestDownLaw := by
  intro s t hs h
  rw [State.destDownLaw_iff] at hs ⊢
  exact (step_course h).keeps (law := fun s => s.ledger.Downs) (fun _ _ => State.Turn.downs) hs

end Sys2Proof.Machine
end

section
/-! PROOFS. Grant records, their bids and their unsent grants, entry by entry (R64 to R83). -/

namespace Sys2Proof.Machine

open Function (update)

variable {ex : Did → Prop} {b c : Ledger}

/-! ### Bids cover records -/

/-- A bid queue `l` names each source once, with backlogs from 1 to 255, and covers the records `r` of its sources (R64,
R71). -/
structure Covers (l : List BidEntry) (r : PortId → Option GrantRec) : Prop where
  apart : (l.map fun e => e.src).Nodup
  range : ∀ e ∈ l, 1 ≤ e.backlog ∧ e.backlog ≤ 255
  records : ∀ p g, r p = some g → ∃ e ∈ l, e.src = p ∧ 1 ≤ g.remaining ∧ g.remaining ≤ e.backlog

namespace Covers

variable {l : List BidEntry} {r : PortId → Option GrantRec} {p : PortId}

/-- The entry of a source is its one entry. -/
theorem eq_of_src (h : Covers l r) {e x : BidEntry} (he : e ∈ l) (hx : x ∈ l) (same : x.src = e.src) : x = e :=
  List.inj_on_of_nodup_map h.apart hx he same

/-- Records close, or lower their remaining counts. -/
theorem lowered (h : Covers l r) {r' : PortId → Option GrantRec}
    (less : ∀ p g, r' p = some g → ∃ y, r p = some y ∧ 1 ≤ g.remaining ∧ g.remaining ≤ y.remaining) : Covers l r' where
  apart := h.apart
  range := h.range
  records p g record := by
    obtain ⟨y, was, pos, le⟩ := less p g record
    obtain ⟨e, he, src, -, top⟩ := h.records p y was
    exact ⟨e, he, src, pos, le.trans top⟩

theorem close (h : Covers l r) : Covers l (update r p none) := by
  refine h.lowered fun q g record => ?_
  by_cases hq : q = p
  · subst hq
    rw [Function.update_self] at record
    cases record
  · rw [Function.update_of_ne hq] at record
    obtain ⟨-, -, -, pos, -⟩ := h.records q g record
    exact ⟨g, record, pos, Nat.le_refl _⟩

theorem cut (h : Covers l r) {g y : GrantRec} (record : r p = some y) (pos : 1 ≤ g.remaining)
    (less : g.remaining ≤ y.remaining) : Covers l (update r p (some g)) := by
  refine h.lowered fun q x new => ?_
  by_cases hq : q = p
  · subst hq
    rw [Function.update_self] at new
    cases new
    exact ⟨y, record, pos, less⟩
  · rw [Function.update_of_ne hq] at new
    obtain ⟨-, -, -, pos, -⟩ := h.records q x new
    exact ⟨x, new, pos, Nat.le_refl _⟩

/-- Bids without a record are removed (R67, R87, R89). -/
theorem sublist (h : Covers l r) {l' : List BidEntry} (sub : l'.Sublist l) (kept : ∀ e ∈ l, r e.src ≠ none → e ∈ l') :
    Covers l' r where
  apart := h.apart.sublist (sub.map _)
  range e he := h.range e (sub.subset he)
  records p g record := by
    obtain ⟨e, he, rfl, rest⟩ := h.records p g record
    exact ⟨e, kept e he (by rw [record]; nofun), rfl, rest⟩

/-- A bid is entered (R66). -/
theorem enter (h : Covers l r) {n : Nat} (pos : 1 ≤ n) (top : n ≤ 255) (within : ∀ g, r p = some g → g.remaining ≤ n) :
    Covers (bidsWith p n l) r := by
  unfold bidsWith
  split_ifs with named
  · have src (e : BidEntry) : (if e.src = p then { e with backlog := n } else e).src = e.src := by split_ifs <;> rfl
    refine ⟨?_, fun e he => ?_, fun q g record => ?_⟩
    · rw [List.map_map]
      exact (congrArg List.Nodup (List.map_congr_left fun e _ => src e)).mpr h.apart
    · obtain ⟨x, hx, rfl⟩ := List.mem_map.1 he
      split_ifs
      · exact ⟨pos, top⟩
      · exact h.range x hx
    · obtain ⟨e, he, rfl, least, most⟩ := h.records q g record
      refine ⟨_, List.mem_map_of_mem he, src e, least, ?_⟩
      split_ifs with own
      · exact within g (own ▸ record)
      · exact most
  · have fresh : ∀ e ∈ l, e.src ≠ p := (bidOf_eq_none p l).1 (by simpa using named)
    refine ⟨?_, fun e he => ?_, fun q g record => ?_⟩
    · rw [List.map_append]
      refine List.nodup_append.2 ⟨h.apart, List.nodup_singleton _, fun x hx y hy same => ?_⟩
      obtain ⟨e, he, rfl⟩ := List.mem_map.1 hx
      rw [List.map_singleton, List.mem_singleton] at hy
      exact fresh e he (same.trans hy)
    · obtain he | he := List.mem_append.1 he
      · exact h.range e he
      · rw [List.mem_singleton.1 he]
        exact ⟨pos, top⟩
    · obtain ⟨e, he, rest⟩ := h.records q g record
      exact ⟨e, List.mem_append_left _ he, rest⟩

/-- What source `p` bid is gone, and its record with it (R85). -/
theorem withoutSource (h : Covers l r) {r' : PortId → Option GrantRec} (gone : r' p = none)
    (others : ∀ q, q ≠ p → r' q = r q) : Covers (bidsWithout p l) r' := by
  have closed : Covers l r' := by
    refine h.lowered fun q g record => ?_
    have hq : q ≠ p := by
      rintro rfl
      rw [gone] at record
      cases record
    rw [others q hq] at record
    obtain ⟨-, -, -, pos, -⟩ := h.records q g record
    exact ⟨g, record, pos, Nat.le_refl _⟩
  refine closed.sublist (bidsWithout_sublist p l) fun e he record => mem_bidsWithout.2 ⟨he, ?_⟩
  rintro rfl
  exact record gone

/-- A grant is issued within the backlog, and its bid moves to the tail (R75, R77). -/
theorem issue (h : Covers l r) {e : BidEntry} (he : e ∈ l) {g : GrantRec} (pos : 1 ≤ g.remaining)
    (within : g.remaining ≤ e.backlog) : Covers (bidsWithout e.src l ++ [e]) (update r e.src (some g)) := by
  have member {x : BidEntry} (hx : x ∈ l) : x ∈ bidsWithout e.src l ++ [e] := by
    by_cases same : x.src = e.src
    · rw [h.eq_of_src he hx same]
      exact List.mem_append_right _ (List.mem_singleton_self e)
    · exact List.mem_append_left _ (mem_bidsWithout.2 ⟨hx, same⟩)
  refine ⟨?_, fun x hx => ?_, fun q x record => ?_⟩
  · rw [List.map_append]
    refine List.nodup_append.2 ⟨h.apart.sublist ((bidsWithout_sublist e.src l).map _), List.nodup_singleton _,
      fun x hx y hy same => ?_⟩
    obtain ⟨z, hz, rfl⟩ := List.mem_map.1 hx
    rw [List.map_singleton, List.mem_singleton] at hy
    exact (mem_bidsWithout.1 hz).2 (same.trans hy)
  · obtain hx | hx := List.mem_append.1 hx
    · exact h.range x (bidsWithout_src hx)
    · rw [List.mem_singleton.1 hx]
      exact h.range e he
  · by_cases hq : q = e.src
    · subst hq
      rw [Function.update_self] at record
      cases record
      exact ⟨e, member he, rfl, pos, within⟩
    · rw [Function.update_of_ne hq] at record
      obtain ⟨y, hy, rest⟩ := h.records q x record
      exact ⟨y, member hy, rest⟩

theorem mem_bidsLowered {x : BidEntry} : x ∈ bidsLowered p l ↔
    (x ∈ l ∧ x.src ≠ p) ∨ (x.src = p ∧ 1 ≤ x.backlog ∧ { x with backlog := x.backlog + 1 } ∈ l) := by
  unfold bidsLowered
  rw [List.mem_filterMap]
  constructor
  · rintro ⟨e, he, lowered⟩
    split_ifs at lowered with own small
    · cases lowered
      refine .inr ⟨own, ?_, ?_⟩
      · dsimp only; omega
      · dsimp only
        rwa [Nat.sub_add_cancel (by omega)]
    · cases lowered
      exact .inl ⟨he, own⟩
  · rintro (⟨hx, other⟩ | ⟨own, pos, hx⟩)
    · exact ⟨x, hx, if_neg other⟩
    · refine ⟨_, hx, ?_⟩
      rw [if_pos own, if_neg (by dsimp only; omega)]
      rfl

theorem bidsLowered_srcs (p : PortId) (l : List BidEntry) :
    ((bidsLowered p l).map fun e => e.src).Sublist (l.map fun e => e.src) := by
  induction l with
  | nil => exact .slnil
  | cons e l ih =>
    unfold bidsLowered at ih ⊢
    rw [List.filterMap_cons]
    split_ifs
    · exact ih.cons _
    · exact ih.cons_cons _
    · exact ih.cons_cons _

/-- The backlog of source `p` falls by one; its record falls with it, or it has none (R80, R81). -/
theorem lower (h : Covers l r) {r' : PortId → Option GrantRec} (others : ∀ q, q ≠ p → r' q = r q)
    (own : ∀ g, r' p = some g → 1 ≤ g.remaining ∧ ∃ y, r p = some y ∧ g.remaining + 1 ≤ y.remaining) :
    Covers (bidsLowered p l) r' := by
  refine ⟨h.apart.sublist (bidsLowered_srcs p l), fun e he => ?_, fun q g record => ?_⟩
  · obtain ⟨he, -⟩ | ⟨-, pos, he⟩ := mem_bidsLowered.1 he
    · exact h.range e he
    · exact ⟨pos, (Nat.le_succ _).trans (h.range _ he).2⟩
  · by_cases hq : q = p
    · subst hq
      obtain ⟨pos, y, was, less⟩ := own g record
      obtain ⟨e, he, src, -, top⟩ := h.records q y was
      refine ⟨{ e with backlog := e.backlog - 1 }, mem_bidsLowered.2 (.inr ⟨src, ?_, ?_⟩), src, pos, ?_⟩
      · dsimp only; omega
      · dsimp only
        rwa [Nat.sub_add_cancel (by omega)]
      · dsimp only; omega
    · rw [others q hq] at record
      obtain ⟨e, he, src, rest⟩ := h.records q g record
      exact ⟨e, mem_bidsLowered.2 (.inl ⟨he, src.trans_ne hq⟩), src, rest⟩

end Covers

/-! ### Unsent grants agree with their records -/

/-- An outbox `o` holds one entry for each of its keys, which belongs to an open record with its quota, and a deadline is
absent exactly while an entry waits (R72, R77). -/
structure Agrees (o : List GrantEntry) (row : Did × GClass → Option GrantRec) : Prop where
  apart : (o.map fun x => (x.did, x.cls)).Nodup
  waits : ∀ k g, row k = some g → (g.deadline = none ↔ ∃ x ∈ o, (x.did, x.cls) = k)
  quotas : ∀ x ∈ o, ∃ g, row (x.did, x.cls) = some g ∧ 1 ≤ x.quota ∧ x.quota ≤ g.remaining

theorem GrantEntry.isFor_key (x : GrantEntry) (d : Did) (g : GClass) : x.isFor d g = true ↔ (x.did, x.cls) = (d, g) := by
  rw [x.isFor_iff, Prod.mk.injEq]

namespace Agrees

variable {o : List GrantEntry} {row : Did × GClass → Option GrantRec} {d : Did} {g : GClass}

theorem none : Agrees [] fun _ => .none := ⟨List.nodup_nil, nofun, nofun⟩

/-- A record closes, and its entry is withdrawn (R79). -/
theorem close (h : Agrees o row) : Agrees (outboxWithout d g o) (update row (d, g) .none) := by
  have member {x : GrantEntry} : x ∈ outboxWithout d g o ↔ x ∈ o ∧ (x.did, x.cls) ≠ (d, g) := by
    unfold outboxWithout
    rw [List.mem_filter, Bool.not_eq_true', ← Bool.not_eq_true, x.isFor_key]
  refine ⟨h.apart.sublist (List.filter_sublist.map _), fun k y record => ?_, fun x hx => ?_⟩
  · by_cases hk : k = (d, g)
    · subst hk
      rw [Function.update_self] at record
      cases record
    · rw [Function.update_of_ne hk] at record
      rw [h.waits k y record]
      refine exists_congr fun x => ?_
      rw [member, and_assoc]
      exact and_congr_right fun _ => ⟨fun e => ⟨e ▸ hk, e⟩, fun e => e.2⟩
  · obtain ⟨hx, other⟩ := member.1 hx
    rw [Function.update_of_ne other]
    exact h.quotas x hx

/-- The entries of an outbox change their quotas alone. -/
theorem map (h : Agrees o row) {f : GrantEntry → GrantEntry} {row' : Did × GClass → Option GrantRec}
    (key : ∀ x, ((f x).did, (f x).cls) = (x.did, x.cls))
    (waits : ∀ k y, row' k = some y → (y.deadline = .none ↔ ∃ x ∈ o, (x.did, x.cls) = k))
    (quotas : ∀ x ∈ o, ∃ y, row' (x.did, x.cls) = some y ∧ 1 ≤ (f x).quota ∧ (f x).quota ≤ y.remaining) :
    Agrees (o.map f) row' := by
  refine ⟨?_, fun k y record => ?_, fun x hx => ?_⟩
  · rw [List.map_map]
    exact (congrArg List.Nodup (List.map_congr_left fun x _ => key x)).mpr h.apart
  · rw [waits k y record]
    refine ⟨fun ⟨x, hx, same⟩ => ⟨f x, List.mem_map_of_mem hx, (key x).trans same⟩, fun ⟨x, hx, same⟩ => ?_⟩
    obtain ⟨z, hz, rfl⟩ := List.mem_map.1 hx
    exact ⟨z, hz, (key z).symm.trans same⟩
  · obtain ⟨z, hz, rfl⟩ := List.mem_map.1 hx
    rw [key]
    exact quotas z hz

/-- A record is cut to `n`, and its entry with it (R68, R79). -/
theorem cut (h : Agrees o row) {y : GrantRec} {n : Nat} (record : row (d, g) = some y) (pos : 1 ≤ n) :
    Agrees (outboxCapped d g n o) (update row (d, g) (some { y with remaining := n })) := by
  refine h.map (fun x => by split_ifs <;> rfl) (fun k z new => ?_) fun x hx => ?_
  · by_cases hk : k = (d, g)
    · subst hk
      rw [Function.update_self] at new
      cases new
      exact h.waits _ y record
    · rw [Function.update_of_ne hk] at new
      exact h.waits k z new
  · obtain ⟨z, was, least, most⟩ := h.quotas x hx
    split_ifs with own
    · rw [x.isFor_key] at own
      rw [own, Function.update_self]
      exact ⟨_, rfl, Nat.le_min.2 ⟨least, pos⟩, Nat.min_le_right _ _⟩
    · rw [x.isFor_key] at own
      rw [Function.update_of_ne own]
      exact ⟨z, was, least, most⟩

/-- A grant is issued: its entry is placed or raised, and its deadline is absent (R77). -/
theorem issue (h : Agrees o row) {q : Nat} (pos : 1 ≤ q) :
    Agrees (outboxPlace d g q o) (update row (d, g) (some ⟨remainingOf (row (d, g)) + q, .none⟩)) := by
  unfold outboxPlace
  split_ifs with any
  · obtain ⟨w, hw, own⟩ := List.any_eq_true.1 any
    rw [w.isFor_key] at own
    refine h.map (fun x => by split_ifs <;> rfl) (fun k z new => ?_) fun x hx => ?_
    · by_cases hk : k = (d, g)
      · subst hk
        rw [Function.update_self] at new
        cases new
        exact ⟨fun _ => ⟨w, hw, own⟩, fun _ => rfl⟩
      · rw [Function.update_of_ne hk] at new
        exact h.waits k z new
    · obtain ⟨z, was, least, most⟩ := h.quotas x hx
      split_ifs with own
      · rw [x.isFor_key] at own
        rw [own, Function.update_self, ← own, was]
        exact ⟨_, rfl, by dsimp only; omega, Nat.add_le_add_right most q⟩
      · rw [x.isFor_key] at own
        rw [Function.update_of_ne own]
        exact ⟨z, was, least, most⟩
  · have fresh : ∀ x ∈ o, (x.did, x.cls) ≠ (d, g) := fun x hx own =>
      any (List.any_eq_true.2 ⟨x, hx, (x.isFor_key d g).2 own⟩)
    refine ⟨?_, fun k z new => ?_, fun x hx => ?_⟩
    · rw [List.map_append]
      refine List.nodup_append.2 ⟨h.apart, List.nodup_singleton _, fun x hx y hy same => ?_⟩
      obtain ⟨z, hz, rfl⟩ := List.mem_map.1 hx
      rw [List.map_singleton, List.mem_singleton] at hy
      exact fresh z hz (same.trans hy)
    · by_cases hk : k = (d, g)
      · subst hk
        rw [Function.update_self] at new
        cases new
        exact ⟨fun _ => ⟨_, List.mem_append_right _ (List.mem_singleton_self _), rfl⟩, fun _ => rfl⟩
      · rw [Function.update_of_ne hk] at new
        rw [h.waits k z new]
        refine ⟨fun ⟨x, hx, same⟩ => ⟨x, List.mem_append_left _ hx, same⟩, fun ⟨x, hx, same⟩ => ?_⟩
        obtain hx | hx := List.mem_append.1 hx
        · exact ⟨x, hx, same⟩
        · rw [List.mem_singleton.1 hx] at same
          exact absurd same.symm hk
    · obtain hx | hx := List.mem_append.1 hx
      · rw [Function.update_of_ne (fresh x hx)]
        exact h.quotas x hx
      · rw [List.mem_singleton.1 hx, Function.update_self]
        exact ⟨_, rfl, pos, Nat.le_add_left _ _⟩

/-- The oldest `n` entries are sent, and the deadlines of their records start (R70, R78). -/
theorem send (h : Agrees o row) (n time : Nat) : Agrees (o.drop n) fun k => (row k).map fun y =>
    if (o.take n).any (fun x => x.isFor k.1 k.2) then { y with deadline := some time } else y := by
  have sent (k : Did × GClass) : (o.take n).any (fun x => x.isFor k.1 k.2) = true ↔ ∃ x ∈ o.take n, (x.did, x.cls) = k := by
    rw [List.any_eq_true]
    exact exists_congr fun x => and_congr_right fun _ => x.isFor_key k.1 k.2
  have split : o.take n ++ o.drop n = o := List.take_append_drop n o
  have apart := h.apart
  rw [← split, List.map_append, List.nodup_append] at apart
  obtain ⟨-, later, disjoint⟩ := apart
  refine ⟨later, fun k z new => ?_, fun x hx => ?_⟩
  · obtain ⟨y, record, rfl⟩ := Option.map_eq_some_iff.1 new
    split_ifs with any
    · obtain ⟨x, hx, same⟩ := (sent k).1 any
      refine ⟨nofun, fun ⟨w, hw, also⟩ => ?_⟩
      exact absurd (same.trans also.symm) (disjoint _ (List.mem_map_of_mem hx) _ (List.mem_map_of_mem hw))
    · rw [h.waits k y record]
      refine ⟨fun ⟨x, hx, same⟩ => ⟨x, ?_, same⟩, fun ⟨x, hx, same⟩ => ⟨x, List.mem_of_mem_drop hx, same⟩⟩
      rw [← split] at hx
      exact (List.mem_append.1 hx).resolve_left fun early => any ((sent k).2 ⟨x, early, same⟩)
  · obtain ⟨y, record, least, most⟩ := h.quotas x (List.mem_of_mem_drop hx)
    rw [record]
    refine ⟨_, rfl, least, ?_⟩
    dsimp only
    split_ifs <;> exact most

end Agrees

/-! ### The law in the books -/

/-- Every open record is covered by its bid, every unsent grant belongs to one, and a grant is at least 1 (R64 to R83). -/
structure Ledger.Grants (b : Ledger) : Prop where
  least : ∀ c, 1 ≤ (b.classes.get c).grantMax
  covers : ∀ d c, Covers (b.bids d c) fun p => b.grant p (d, c)
  agrees : ∀ p, Agrees (b.outbox p) (b.grant p)

theorem State.grants_iff {s : State} (law : s.SettingsLaw) : s.ledger.Grants ↔ s.GrantLaw := by
  obtain ⟨-, ⟨least1, -⟩, ⟨least2, -⟩, ⟨least3, -⟩, -⟩ := law
  constructor
  · intro h
    refine ⟨fun d c => ?_, fun p => ?_⟩
    · obtain ⟨apart, range, records⟩ := h.covers d c
      refine ⟨apart, range, fun p g record => ⟨records p g record, ?_⟩⟩
      rw [(h.agrees p).waits (d, c) g record]
      simp only [Prod.mk.injEq]
      rfl
    · obtain ⟨apart, -, quotas⟩ := h.agrees p
      exact ⟨apart, quotas⟩
  · rintro ⟨queues, boxes⟩
    refine ⟨fun c => ?_, fun d c => ?_, fun p => ?_⟩
    · cases c
      · exact least1
      · exact least2
      · exact least3
    · obtain ⟨apart, range, records⟩ := queues d c
      exact ⟨apart, range, fun p g record => (records p g record).1⟩
    · obtain ⟨apart, quotas⟩ := boxes p
      refine ⟨apart, fun ⟨d, c⟩ g record => ?_, quotas⟩
      obtain ⟨-, -, records⟩ := queues d c
      rw [(records p g record).2]
      simp only [Prod.mk.injEq]
      rfl

/-- One record written, seen from the queue of its DID and class and from every other one. -/
theorem record_column (grant : PortId → Did × GClass → Option GrantRec) (p : PortId) (d : Did) (g : GClass)
    (x : Option GrantRec) (e : Did) (k : GClass) : (fun q => put grant p (d, g) x q (e, k)) =
      if e = d ∧ k = g then update (fun q => grant q (d, g)) p x else fun q => grant q (e, k) := by
  funext q
  rw [put_apply]
  by_cases same : e = d ∧ k = g
  · obtain ⟨rfl, rfl⟩ := same
    simp only [and_self, and_true, if_true, Function.update_apply]
  · rw [if_neg same, if_neg fun h => same (Prod.mk.inj h.2)]

/-- One bid queue and one record of it are written. -/
theorem Ledger.Grants.covers_put (h : b.Grants) {p : PortId} {d : Did} {g : GClass} {l : List BidEntry}
    {x : Option GrantRec} (covers : Covers l (update (fun q => b.grant q (d, g)) p x)) (e : Did) (k : GClass) :
    Covers (put b.bids d g l e k) fun q => put b.grant p (d, g) x q (e, k) := by
  rw [record_column, put_apply]
  split_ifs with same
  · exact covers
  · exact h.covers e k

/-- One bid queue is written. -/
theorem Ledger.Grants.covers_bids (h : b.Grants) {d : Did} {g : GClass} {l : List BidEntry}
    (covers : Covers l fun q => b.grant q (d, g)) (e : Did) (k : GClass) :
    Covers (put b.bids d g l e k) fun q => b.grant q (e, k) := by
  rw [put_apply]
  split_ifs with same
  · obtain ⟨rfl, rfl⟩ := same
    exact covers
  · exact h.covers e k

/-- One record is written. -/
theorem Ledger.Grants.covers_record (h : b.Grants) {p : PortId} {d : Did} {g : GClass} {x : Option GrantRec}
    (covers : Covers (b.bids d g) (update (fun q => b.grant q (d, g)) p x)) (e : Did) (k : GClass) :
    Covers (b.bids e k) fun q => put b.grant p (d, g) x q (e, k) := by
  rw [record_column]
  split_ifs with same
  · obtain ⟨rfl, rfl⟩ := same
    exact covers
  · exact h.covers e k

/-- One outbox and one row of records are written. -/
theorem Ledger.Grants.agrees_update (h : b.Grants) {p : PortId} {o : List GrantEntry}
    {row : Did × GClass → Option GrantRec} (agrees : Agrees o row) (q : PortId) :
    Agrees (update b.outbox p o q) (update b.grant p row q) := by
  by_cases hq : q = p
  · subst hq
    rwa [Function.update_self, Function.update_self]
  · rw [Function.update_of_ne hq, Function.update_of_ne hq]
    exact h.agrees q

/-- The record of an admitted cell falls by one, and is closed at 0 (R55). -/
theorem Ledger.Grants.spend (h : b.Grants) {p : PortId} {d : Did} {g : GClass} {r : GrantRec}
    (record : b.grant p (d, g) = some r) : Covers (bidsLowered p (b.bids d g)) (update (fun q => b.grant q (d, g)) p
      (if r.remaining - 1 = 0 then none else some { r with remaining := r.remaining - 1 })) := by
  refine (h.covers d g).lower (fun q hq => Function.update_of_ne hq _ _) fun y new => ?_
  rw [Function.update_self] at new
  split_ifs at new with last
  cases new
  exact ⟨Nat.pos_of_ne_zero last, r, record, by dsimp only; omega⟩

theorem Ledger.Entry.grants (e : Ledger.Entry ex b c) (h : b.Grants) : c.Grants := by
  cases e
  case recordClosed p d g r record =>
    exact { h with covers := h.covers_record (h.covers d g).close, agrees := h.agrees_update (h.agrees p).close }
  case recordCut p d g r n record pos less =>
    exact { h with
      covers := h.covers_record ((h.covers d g).cut record pos less.le)
      agrees := h.agrees_update ((h.agrees p).cut record pos) }
  case bidEntered p d g n _ pos top within =>
    exact { h with covers := h.covers_bids ((h.covers d g).enter pos top within) }
  case bidsGone d g l sub kept => exact { h with covers := h.covers_bids ((h.covers d g).sublist sub kept) }
  case sourceGone p =>
    refine { h with covers := fun d g => (h.covers d g).withoutSource ?_ fun q hq => ?_, agrees := h.agrees_update .none }
    · exact congrFun (Function.update_self p _ b.grant) (d, g)
    · exact congrFun (Function.update_of_ne hq _ b.grant) (d, g)
  case grantIssued d g x q _ bid need pos _ _ =>
    have some := pos (h.least g)
    refine { h with
      covers := h.covers_put ((h.covers d g).issue bid ?_ ?_), agrees := h.agrees_update ((h.agrees x.src).issue some) }
    · dsimp only; omega
    · dsimp only; omega
  case grantsSent p n time =>
    refine { h with covers := fun d g => (h.covers d g).lowered fun q y new => ?_, agrees := h.agrees_update ((h.agrees p).send n time) }
    dsimp only at new
    by_cases hq : q = p
    · subst hq
      rw [Function.update_self] at new
      obtain ⟨z, record, rfl⟩ := Option.map_eq_some_iff.1 new
      obtain ⟨-, -, -, pos, -⟩ := (h.covers d g).records q z record
      refine ⟨z, record, ?_⟩
      split_ifs <;> exact ⟨pos, Nat.le_refl _⟩
    · rw [Function.update_of_ne hq] at new
      obtain ⟨-, -, -, pos, -⟩ := (h.covers d g).records q y new
      exact ⟨y, new, pos, Nat.le_refl _⟩
  case cellGranted p d g r y _ record =>
    refine { h with covers := h.covers_put (h.spend record), agrees := h.agrees_update ?_ }
    split_ifs with last
    · exact (h.agrees p).close
    · exact (h.agrees p).cut record (Nat.pos_of_ne_zero last)
  case cellLate p d g y _ record _ =>
    refine { h with covers := h.covers_bids ((h.covers d g).lower (fun _ _ => rfl) fun r some => ?_) }
    rw [record] at some
    cases some
  all_goals exact { h with }

theorem classesFrom_grantMax (cmd : CmdCell) (c : GClass) :
    1 ≤ (PerG.get ⟨classFrom cmd 1, classFrom cmd 5, classFrom cmd 9⟩ c).grantMax := by
  have least (i : Nat) : 1 ≤ (classFrom cmd i).grantMax := (clampNat_range (hi := 64) (by decide) _).1
  cases c <;> exact least _

theorem Ledger.Grants.lasting : Ledger.Lasting Ledger.Grants where
  entry _ _ _ e := e.grants
  classes b cmd h := { h with least := classesFrom_grantMax cmd }
  pool s cmd _ _ h := by rw [s.applyPoolSet_ledger]; exact { h with }
  emptied s h := by
    rw [s.emptied_ledger]
    exact { h with covers := fun _ _ => ⟨List.nodup_nil, nofun, nofun⟩, agrees := fun _ => .none }
  reset := by
    obtain ⟨-, -, -, -, -, settings, -, -, -, grants, -⟩ := resetMeetsEveryLaw
    exact (State.grants_iff settings).2 grants

end Sys2Proof.Machine
end

section
/-! PROOFS. The references to stored multicast cells, entry by entry (R132, R135, R136). -/

namespace Sys2Proof.Machine

open Function (update)

variable {ex : Did → Prop} {b c : Ledger}

/-! ### The references of a queue -/

/-- The names that the references of a queue bear. -/
def namesOf (q : List QEntry) : List Nat := q.filterMap fun
  | .mref n => some n
  | _ => none

theorem namesOf_append (q r : List QEntry) : namesOf (q ++ r) = namesOf q ++ namesOf r := List.filterMap_append

theorem namesOf_mref (n : Nat) (q : List QEntry) : namesOf (.mref n :: q) = n :: namesOf q := rfl

theorem mem_namesOf {q : List QEntry} {n : Nat} : n ∈ namesOf q ↔ .mref n ∈ q := by
  induction q with
  | nil => simp [namesOf]
  | cons e q ih => cases e <;> simp_all [namesOf]

theorem length_namesOf (q : List QEntry) : (namesOf q).length = q.countP QEntry.isRef := by
  induction q with
  | nil => rfl
  | cons e q ih => cases e <;> simp_all [namesOf, QEntry.isRef, List.countP_cons]

theorem count_namesOf (q : List QEntry) (n : Nat) : (namesOf q).count n = q.count (.mref n) := by
  induction q with
  | nil => rfl
  | cons e q ih => cases e <;> simp_all [namesOf, List.count_cons]

theorem count_one (n x : Nat) : [n].count x = if x = n then 1 else 0 := by
  rw [List.count_singleton]
  by_cases h : x = n
  · rw [if_pos h, if_pos (beq_iff_eq.2 h.symm)]
  · rw [if_neg h, if_neg fun same => h (beq_iff_eq.1 same).symm]

/-! ### The references to one cell -/

/-- The references that bear the name `n`, in the granted queues of one DID. -/
def Ledger.referencesIn (b : Ledger) (d : Did) (n : Nat) : Nat :=
  (namesOf (b.queue d .c1)).count n + (namesOf (b.queue d .c2)).count n + (namesOf (b.queue d .c3)).count n

/-- The references that bear the name `n`, in all the granted queues. -/
def Ledger.references (b : Ledger) (n : Nat) : Nat := (allDids.map fun d => b.referencesIn d n).sum

/-- The references of the queues (R135, R136). -/
structure Ledger.Refs (b : Ledger) : Prop where
  counted : ∀ d g, b.refs d g = (namesOf (b.queue d g.cls)).length
  class0 : ∀ d, namesOf (b.queue d .c0) = []
  named : ∀ d k, ∀ n ∈ namesOf (b.queue d k), ∃ m ∈ b.mcCells, m.name = n
  fanOut : ∀ m ∈ b.mcCells, m.fanOut = b.references m.name

theorem State.refLaw_iff (s : State) : s.RefLaw ↔ s.ledger.Refs := by
  have total (n : Nat) : s.ledger.references n =
      (allDids.map fun d => (GClass.all.map fun g => (s.queue d g.cls).count (.mref n)).sum).sum := by
    unfold Ledger.references Ledger.referencesIn
    simp only [count_namesOf, GClass.all, List.map_cons, List.map_nil, List.sum_cons, List.sum_nil, Nat.add_zero, Nat.add_assoc]
    rfl
  constructor
  · rintro ⟨counted, class0, named, fanOut⟩
    refine ⟨fun d g => (counted d g).trans (length_namesOf _).symm, fun d => ?_, fun d k n hn => named d k n (mem_namesOf.1 hn),
      fun m hm => (fanOut m hm).trans (total _).symm⟩
    rw [← List.length_eq_zero_iff, length_namesOf]
    exact class0 d
  · rintro ⟨counted, class0, named, fanOut⟩
    refine ⟨fun d g => (counted d g).trans (length_namesOf _), fun d => ?_, fun d k n hn => named d k n (mem_namesOf.2 hn),
      fun m hm => (fanOut m hm).trans (total _)⟩
    rw [← length_namesOf]
    exact congrArg List.length (class0 d)

/-- Only the references of the queues matter. -/
theorem Ledger.Refs.same (h : b.Refs) (names : ∀ d k, namesOf (c.queue d k) = namesOf (b.queue d k))
    (refs : c.refs = b.refs) (cells : c.mcCells = b.mcCells) : c.Refs where
  counted d g := by rw [refs, names]; exact h.counted d g
  class0 d := by rw [names]; exact h.class0 d
  named d k := by rw [names, cells]; exact h.named d k
  fanOut m hm := by
    unfold Ledger.references Ledger.referencesIn
    simp only [names]
    exact h.fanOut m (cells ▸ hm)

/-- A queue is replaced by one with the same references. -/
theorem namesOf_put {queue : Did → Cls → List QEntry} {d : Did} {k : Cls} {q : List QEntry}
    (same : namesOf q = namesOf (queue d k)) (e : Did) (j : Cls) : namesOf (put queue d k q e j) = namesOf (queue e j) := by
  rw [put_apply]
  split_ifs with h
  · rw [h.1, h.2, same]
  · rfl

theorem namesOf_snoc {q : List QEntry} {e : QEntry} (other : namesOf [e] = []) : namesOf (q ++ [e]) = namesOf q := by
  rw [namesOf_append, other, List.append_nil]

/-! ### A reference leaves -/

/-- A reference stands in a granted queue (R132). -/
theorem Ledger.Refs.granted (h : b.Refs) {d : Did} {k : Cls} {n : Nat} {rest : List QEntry}
    (head : b.queue d k = .mref n :: rest) : ∃ g : GClass, g.cls = k := by
  cases k
  · have none := h.class0 d
    rw [head] at none
    cases none
  · exact ⟨.c1, rfl⟩
  · exact ⟨.c2, rfl⟩
  · exact ⟨.c3, rfl⟩

/-- The references after the head of one queue left. -/
theorem Ledger.references_leave {d : Did} {g : GClass} {n : Nat} {rest : List QEntry}
    (head : b.queue d g.cls = .mref n :: rest) (queue : c.queue = put b.queue d g.cls rest) (x : Nat) :
    b.references x = c.references x + if x = n then 1 else 0 := by
  have others (e : Did) (he : e ≠ d) : c.referencesIn e x = b.referencesIn e x := by
    unfold Ledger.referencesIn
    simp only [queue, put_other _ he]
  have own : b.referencesIn d x = c.referencesIn d x + if x = n then 1 else 0 := by
    have counted : (namesOf (b.queue d g.cls)).count x = (namesOf rest).count x + if x = n then 1 else 0 := by
      rw [head, namesOf_mref, ← List.singleton_append, List.count_append, count_one, Nat.add_comm]
    unfold Ledger.referencesIn
    rw [queue]
    cases g <;> simp only [put_apply, GClass.cls, true_and, reduceCtorEq, if_true, if_false] at counted ⊢ <;> omega
  have replaced := sum_replace d others
  change c.references x + b.referencesIn d x = b.references x + c.referencesIn d x at replaced
  omega

theorem Ledger.references_eq_zero (n : Nat) :
    b.references n = 0 ↔ ∀ d (g : GClass), n ∉ namesOf (b.queue d g.cls) := by
  unfold Ledger.references
  rw [List.sum_eq_zero_iff, List.forall_mem_map]
  unfold Ledger.referencesIn
  simp only [Nat.add_eq_zero_iff, List.count_eq_zero]
  constructor
  · intro h d g
    obtain ⟨⟨c1, c2⟩, c3⟩ := h d (List.mem_finRange d)
    cases g
    · exact c1
    · exact c2
    · exact c3
  · exact fun h d _ => ⟨⟨h d .c1, h d .c2⟩, h d .c3⟩

/-- The queues after a reference left, with the stored cells to be settled yet. -/
theorem Ledger.Refs.leave (h : b.Refs) {d : Did} {k : Cls} {n : Nat} {rest : List QEntry}
    (head : b.queue d k = .mref n :: rest) (queue : c.queue = put b.queue d k rest)
    (refs : c.refs = fun e g => b.refs e g - if e = d ∧ g.cls = k then 1 else 0)
    (cells : (∀ x, b.references x = c.references x + if x = n then 1 else 0) →
      (∀ x, c.references x ≠ 0 → (∃ m ∈ b.mcCells, m.name = x) → ∃ m ∈ c.mcCells, m.name = x) ∧
        ∀ m ∈ c.mcCells, m.fanOut = c.references m.name) : c.Refs := by
  obtain ⟨g, rfl⟩ := h.granted head
  have names (e : Did) (j : Cls) : namesOf (c.queue e j) =
      if e = d ∧ j = g.cls then namesOf rest else namesOf (b.queue e j) := by
    rw [queue, put_apply]
    split_ifs <;> rfl
  have old : namesOf (b.queue d g.cls) = n :: namesOf rest := by rw [head]; rfl
  have class0 (e : Did) : namesOf (c.queue e .c0) = [] := by
    rw [names, if_neg fun same => GClass.cls_ne_c0 g same.2.symm]
    exact h.class0 e
  obtain ⟨named, fanOut⟩ := cells (b.references_leave head queue)
  refine ⟨fun e j => ?_, class0, fun e j x hx => named x (fun zero => ?_) ?_, fanOut⟩
  · rw [refs, names]
    dsimp only
    split_ifs with same
    · obtain ⟨rfl, same⟩ := same
      rw [h.counted, same, old]
      rfl
    · rw [h.counted]
      rfl
  · have free := (Ledger.references_eq_zero x).1 zero e
    cases j
    · rw [class0] at hx
      cases hx
    · exact free .c1 hx
    · exact free .c2 hx
    · exact free .c3 hx
  · rw [names] at hx
    split_ifs at hx with same
    · refine h.named d g.cls x ?_
      rw [old]
      exact List.mem_cons_of_mem n hx
    · exact h.named e j x hx

/-! ### A cell is stored -/

/-- A list of different DIDs counted DID by DID. -/
theorem sum_members {ds : List Did} (apart : ds.Nodup) : (allDids.map fun d => if d ∈ ds then 1 else 0).sum = ds.length := by
  have counted : (allDids.map fun d => if d ∈ ds then 1 else 0).sum = ∑ d : Did, if d ∈ ds then 1 else 0 :=
    Fin.sum_univ_def _ |>.symm
  rw [counted, Finset.sum_boole, ← List.toFinset_card_of_nodup apart]
  refine congrArg Finset.card (Finset.ext fun d => ?_)
  simp

theorem Ledger.references_store {g : GClass} {ds : List Did} (apart : ds.Nodup) {n : Nat}
    (queue : c.queue = fun d k => b.queue d k ++ if d ∈ ds ∧ k = g.cls then [.mref n] else []) (x : Nat) :
    c.references x = b.references x + if x = n then ds.length else 0 := by
  have each (d : Did) : c.referencesIn d x = b.referencesIn d x + if d ∈ ds ∧ x = n then 1 else 0 := by
    have added (k : Cls) : (namesOf (c.queue d k)).count x =
        (namesOf (b.queue d k)).count x + if d ∈ ds ∧ x = n ∧ k = g.cls then 1 else 0 := by
      rw [queue]
      dsimp only
      rw [namesOf_append, List.count_append]
      congr 1
      by_cases here : d ∈ ds ∧ k = g.cls
      · rw [if_pos here, namesOf_mref, show namesOf [] = [] from rfl, count_one]
        simp only [here.1, here.2, true_and, and_true]
      · rw [if_neg here, if_neg fun all => here ⟨all.1, all.2.2⟩]
        rfl
    unfold Ledger.referencesIn
    rw [added, added, added]
    cases g <;> simp only [GClass.cls, reduceCtorEq, and_true, and_false, if_false, Nat.add_zero] <;> omega
  have members : (allDids.map fun d => if d ∈ ds ∧ x = n then 1 else 0).sum = if x = n then ds.length else 0 := by
    by_cases name : x = n
    · simp only [name, and_true, if_true]
      exact sum_members apart
    · simp only [name, and_false, if_false]
      exact List.sum_eq_zero fun y hy => by
        obtain ⟨_, -, rfl⟩ := List.mem_map.1 hy
        rfl
  unfold Ledger.references
  rw [← members, ← List.sum_map_add]
  exact congrArg List.sum (List.map_congr_left fun d _ => each d)

/-- A cell is stored with a reference for each receiver (R132, R135, R136). -/
theorem Ledger.Refs.store (h : b.Refs) (pool : b.Pool) {g : GClass} {ds : List Did} (apart : ds.Nodup) {x : StoredCell}
    (queue : c.queue = fun d k => b.queue d k ++ if d ∈ ds ∧ k = g.cls then [.mref b.mcNext] else [])
    (refs : c.refs = fun d k => b.refs d k + if d ∈ ds ∧ k = g then 1 else 0)
    (cells : c.mcCells = b.mcCells ++ [⟨b.mcNext, x, ds.length⟩]) : c.Refs := by
  have total := Ledger.references_store apart queue
  have names (d : Did) (k : Cls) : namesOf (c.queue d k) =
      namesOf (b.queue d k) ++ if d ∈ ds ∧ k = g.cls then [b.mcNext] else [] := by
    rw [queue]
    dsimp only
    rw [namesOf_append]
    split_ifs <;> rfl
  have fresh : b.references b.mcNext = 0 := (Ledger.references_eq_zero _).2 fun d k hn => by
    obtain ⟨m, hm, name⟩ := h.named d k.cls _ hn
    exact Nat.ne_of_lt (pool.names m hm) name
  refine ⟨fun d k => ?_, fun d => ?_, fun d k n hn => ?_, fun m hm => ?_⟩
  · rw [refs, names, List.length_append, ← h.counted]
    by_cases here : d ∈ ds ∧ k = g
    · rw [if_pos ⟨here.1, congrArg GClass.cls here.2⟩]
      exact congrArg _ (if_pos here)
    · rw [if_neg fun same => here ⟨same.1, GClass.cls_injective same.2⟩]
      exact congrArg _ (if_neg here)
  · rw [names, h.class0, if_neg fun same => GClass.cls_ne_c0 g same.2.symm]
    rfl
  · rw [names] at hn
    rw [cells]
    obtain hn | hn := List.mem_append.1 hn
    · obtain ⟨m, hm, name⟩ := h.named d k n hn
      exact ⟨m, List.mem_append_left _ hm, name⟩
    · split_ifs at hn
      · exact ⟨_, List.mem_append_right _ (List.mem_singleton_self _), (List.mem_singleton.1 hn).symm⟩
      · cases hn
  · rw [total]
    rw [cells] at hm
    obtain hm | hm := List.mem_append.1 hm
    · rw [if_neg (Nat.ne_of_lt (pool.names m hm)), Nat.add_zero]
      exact h.fanOut m hm
    · rw [List.mem_singleton.1 hm, if_pos rfl, fresh, Nat.zero_add]

/-- The last reference to a stored cell leaves, and the cell with it (R136). -/
theorem Ledger.Refs.last (h : b.Refs) {d : Did} {k : Cls} {m : McCell} {rest : List QEntry}
    (head : b.queue d k = .mref m.name :: rest) (stored : m ∈ b.mcCells) (last : m.fanOut ≤ 1)
    (queue : c.queue = put b.queue d k rest)
    (refs : c.refs = fun e g => b.refs e g - if e = d ∧ g.cls = k then 1 else 0)
    (cells : c.mcCells = b.mcCells.filter fun x => !decide (x.name = m.name)) : c.Refs := by
  have other {y : McCell} : y ∈ c.mcCells ↔ y ∈ b.mcCells ∧ y.name ≠ m.name := by
    rw [cells, List.mem_filter, Bool.not_eq_true', decide_eq_false_iff_not]
  refine h.leave head queue refs fun left => ⟨fun x some ⟨y, hy, name⟩ => ⟨y, other.2 ⟨hy, fun same => some ?_⟩, name⟩, fun y hy => ?_⟩
  · have was := h.fanOut m stored
    rw [left, if_pos rfl] at was
    rw [← name, same]
    omega
  · obtain ⟨hy, name⟩ := other.1 hy
    rw [h.fanOut y hy, left, if_neg name, Nat.add_zero]

/-- Another reference to a stored cell leaves (R136). -/
theorem Ledger.Refs.lower (h : b.Refs) {d : Did} {k : Cls} {n : Nat} {rest : List QEntry}
    (head : b.queue d k = .mref n :: rest) (queue : c.queue = put b.queue d k rest)
    (refs : c.refs = fun e g => b.refs e g - if e = d ∧ g.cls = k then 1 else 0)
    (cells : c.mcCells = b.mcCells.map fun x => if x.name = n then { x with fanOut := x.fanOut - 1 } else x) : c.Refs := by
  refine h.leave head queue refs fun left => ⟨fun x _ ⟨y, hy, name⟩ => ?_, fun y hy => ?_⟩
  · rw [cells]
    exact ⟨_, List.mem_map_of_mem hy, (lowered_name n y).trans name⟩
  · rw [cells] at hy
    obtain ⟨z, hz, rfl⟩ := List.mem_map.1 hy
    have was := h.fanOut z hz
    rw [left] at was
    rw [lowered_name]
    split_ifs at was ⊢ with same
    · exact Nat.sub_eq_of_eq_add was
    · rwa [Nat.add_zero] at was

/-! ### Entries -/

theorem Ledger.Entry.refs (e : Ledger.Entry ex b c) (pool : b.Pool) (h : b.Refs) : c.Refs := by
  cases e
  case cellGranted p d g r x _ _ => exact h.same (namesOf_put (namesOf_snoc rfl)) rfl rfl
  case cellLate p d g x _ _ _ => exact h.same (namesOf_put (namesOf_snoc rfl)) rfl rfl
  case cellCredited d x _ _ => exact h.same (namesOf_put (namesOf_snoc rfl)) rfl rfl
  case markPlaced k _ _ => exact h.same (namesOf_put (namesOf_snoc rfl)) rfl rfl
  case cellLeaves d g x rest head => exact h.same (namesOf_put (by rw [head]; rfl)) rfl rfl
  case creditLeaves d x rest head => exact h.same (namesOf_put (by rw [head]; rfl)) rfl rfl
  case markLeaves d k src mc rest l head _ => exact h.same (namesOf_put (by rw [head]; rfl)) rfl rfl
  case markServes d k src mc rest m l head _ _ _ =>
    exact h.same (fun e j => (namesOf_put (namesOf_snoc rfl) e j).trans (namesOf_put (by rw [head]; rfl) e j)) rfl rfl
  case cellStored g ds x _ _ apart _ => exact h.store pool apart rfl rfl rfl
  case refLost d k n rest head unnamed =>
    obtain ⟨m, hm, name⟩ := h.named d k n (by rw [head]; exact List.mem_cons_self)
    exact absurd name (unnamed m hm)
  case refLast d k n rest m head named last =>
    obtain ⟨hm, rfl⟩ := name_of_find named
    exact h.last head hm last rfl rfl rfl
  case refLeaves d k n rest m head named _ => exact h.lower head rfl rfl rfl
  all_goals exact h.same (fun _ _ => rfl) rfl rfl

end Sys2Proof.Machine
end

section
/-! PROOFS. The accounts of the buffer, entry by entry (R45, R47, R49, R155). -/

namespace Sys2Proof.Machine

open Function (update)

variable {ex : Did → Prop} {b c : Ledger}

/-! ### Counting queue entries -/

theorem countP_snoc (f : QEntry → Bool) (q : List QEntry) (e : QEntry) :
    (q ++ [e]).countP f = q.countP f + if f e = true then 1 else 0 := by
  rw [List.countP_append, List.countP_singleton]

/-- A queue is replaced by one with the same count. -/
theorem countP_put {f : QEntry → Bool} {queue : Did → Cls → List QEntry} {d : Did} {k : Cls} {q : List QEntry}
    (same : q.countP f = (queue d k).countP f) (e : Did) (j : Cls) :
    (put queue d k q e j).countP f = (queue e j).countP f := by
  rw [put_apply]
  split_ifs with h
  · rw [h.1, h.2, same]
  · rfl

theorem countP_put_snoc {f : QEntry → Bool} {queue : Did → Cls → List QEntry} {d : Did} {k : Cls} {x : QEntry}
    (other : f x = false) (e : Did) (j : Cls) :
    (put queue d k (queue d k ++ [x]) e j).countP f = (queue e j).countP f :=
  countP_put (by rw [countP_snoc, other]; rfl) e j

theorem countP_put_tail {f : QEntry → Bool} {queue : Did → Cls → List QEntry} {d : Did} {k : Cls} {x : QEntry}
    {rest : List QEntry} (head : queue d k = x :: rest) (other : f x = false) (e : Did) (j : Cls) :
    (put queue d k rest e j).countP f = (queue e j).countP f :=
  countP_put (by rw [head, List.countP_cons_of_neg (by rw [other]; nofun)]) e j

/-- A granted queue after another one, or itself, was replaced. -/
theorem put_granted (queue : Did → Cls → List QEntry) (d : Did) (g : GClass) (q : List QEntry) (e : Did) (k : GClass) :
    put queue d g.cls q e k.cls = if e = d ∧ k = g then q else queue e k.cls := by
  rw [put_apply]
  by_cases same : e = d ∧ k = g
  · rw [if_pos same, if_pos ⟨same.1, congrArg GClass.cls same.2⟩]
  · rw [if_neg same, if_neg fun h => same ⟨h.1, GClass.cls_injective h.2⟩]

theorem put_c0_granted (queue : Did → Cls → List QEntry) (d : Did) (q : List QEntry) (e : Did) (k : GClass) :
    put queue d .c0 q e k.cls = queue e k.cls := put_ne queue q fun same => GClass.cls_ne_c0 k same.2

theorem put_granted_c0 (queue : Did → Cls → List QEntry) (d : Did) (g : GClass) (q : List QEntry) (e : Did) :
    put queue d g.cls q e .c0 = queue e .c0 := put_ne queue q fun same => GClass.cls_ne_c0 g same.2.symm

/-! ### The occupied part of a usage -/

/-- The occupied part of a usage is the number of unicast cells in its queue (R45, R49). -/
def Ledger.Occupied (b : Ledger) : Prop := ∀ d g, (b.usage d g).occupied = (b.queue d g.cls).countP QEntry.isCell

/-- Neither the occupied parts nor the unicast cells change. -/
theorem Ledger.Occupied.same (h : b.Occupied) (usage : ∀ d g, (c.usage d g).occupied = (b.usage d g).occupied)
    (queue : ∀ d (g : GClass), (c.queue d g.cls).countP QEntry.isCell = (b.queue d g.cls).countP QEntry.isCell) :
    c.Occupied := fun d g => (usage d g).trans ((h d g).trans (queue d g).symm)

theorem occupied_put {u : Did → GClass → Usage} {d : Did} {g : GClass} {x : Usage} (h : x.occupied = (u d g).occupied)
    (e : Did) (k : GClass) : (put u d g x e k).occupied = (u e k).occupied := by
  rw [put_apply]
  split_ifs with same
  · rw [same.1, same.2, h]
  · rfl

/-- One queue and its usage are written. -/
theorem Ledger.Occupied.put (h : b.Occupied) {d : Did} {g : GClass} {u : Usage} {q : List QEntry}
    (own : u.occupied = q.countP QEntry.isCell) (usage : c.usage = put b.usage d g u)
    (queue : c.queue = put b.queue d g.cls q) : c.Occupied := by
  intro e k
  rw [usage, queue, put_granted, put_apply]
  split_ifs
  · exact own
  · exact h e k

theorem Usage.fill_eq {u : Usage} (some : u.reserved ≠ 0) : u.fill = ⟨u.occupied + 1, u.reserved - 1⟩ := if_neg some

/-! ### The reserved part of a usage -/

/-- The reserved part of a usage is the sum of the remaining counts of its records (R49). -/
def Ledger.Reserved (b : Ledger) : Prop :=
  ∀ d g, (b.usage d g).reserved = (allPorts.map fun p => remainingOf (b.grant p (d, g))).sum

theorem Ledger.Reserved.same (h : b.Reserved) (usage : ∀ d g, (c.usage d g).reserved = (b.usage d g).reserved)
    (grant : ∀ p k, remainingOf (c.grant p k) = remainingOf (b.grant p k)) : c.Reserved := by
  intro d g
  simp only [usage, grant]
  exact h d g

theorem reserved_put {u : Did → GClass → Usage} {d : Did} {g : GClass} {x : Usage} (h : x.reserved = (u d g).reserved)
    (e : Did) (k : GClass) : (put u d g x e k).reserved = (u e k).reserved := by
  rw [put_apply]
  split_ifs with same
  · rw [same.1, same.2, h]
  · rfl

/-- The remaining count of a record is reserved. -/
theorem Ledger.Reserved.le (h : b.Reserved) (p : PortId) (d : Did) (g : GClass) :
    remainingOf (b.grant p (d, g)) ≤ (b.usage d g).reserved := by
  rw [h d g]
  exact le_sum (fun q => remainingOf (b.grant q (d, g))) p

/-- The sum of the remaining counts after one record was written. -/
theorem remaining_update (column : PortId → Option GrantRec) (p : PortId) (x : Option GrantRec) :
    (allPorts.map fun q => remainingOf (update column p x q)).sum + remainingOf (column p) =
      (allPorts.map fun q => remainingOf (column q)).sum + remainingOf x := by
  have replaced := sum_replace p (f := fun q => remainingOf (column q)) (g := fun q => remainingOf (update column p x q))
    fun q hq => by rw [Function.update_of_ne hq]
  rwa [Function.update_self] at replaced

/-- One record and its usage are written. -/
theorem Ledger.Reserved.put (h : b.Reserved) {p : PortId} {d : Did} {g : GClass} {u : Usage} {x : Option GrantRec}
    (own : u.reserved + remainingOf (b.grant p (d, g)) = (b.usage d g).reserved + remainingOf x)
    (usage : c.usage = put b.usage d g u) (grant : c.grant = put b.grant p (d, g) x) : c.Reserved := by
  intro e k
  have column := record_column b.grant p d g x e k
  have each (q : PortId) : c.grant q (e, k) =
      (if e = d ∧ k = g then update (fun q => b.grant q (d, g)) p x else fun q => b.grant q (e, k)) q := by
    rw [grant, ← column]
  simp only [each]
  rw [usage, put_apply]
  split_ifs
  · have written := remaining_update (fun q => b.grant q (d, g)) p x
    have before := h d g
    omega
  · exact h e k

/-- What a source held is returned (R85). -/
theorem Ledger.Reserved.sourceGone (h : b.Reserved) {p : PortId}
    (usage : c.usage = fun d g => Usage.unreserve (remainingOf (b.grant p (d, g))) (b.usage d g))
    (grant : c.grant = update b.grant p fun _ => none) : c.Reserved := by
  intro d g
  have each (q : PortId) : c.grant q (d, g) = update (fun q => b.grant q (d, g)) p none q := by
    rw [grant]
    by_cases hq : q = p
    · subst hq
      rw [Function.update_self, Function.update_self]
    · rw [Function.update_of_ne hq, Function.update_of_ne hq]
  have written := remaining_update (fun q => b.grant q (d, g)) p none
  have before := h d g
  simp only [each]
  rw [usage]
  change (b.usage d g).reserved - remainingOf (b.grant p (d, g)) = _
  change _ = (allPorts.map fun q => remainingOf (b.grant q (d, g))).sum + 0 at written
  omega

/-! ### Usages, entry by entry -/

theorem Ledger.Entry.occupied (e : Ledger.Entry ex b c) (grants : b.Grants) (reserved : b.Reserved) (h : b.Occupied) :
    c.Occupied := by
  cases e
  case recordClosed p d g r _ => exact h.same (occupied_put rfl) fun _ _ => rfl
  case recordCut p d g r n _ _ _ => exact h.same (occupied_put rfl) fun _ _ => rfl
  case sourceGone p => exact h.same (fun _ _ => rfl) fun _ _ => rfl
  case grantIssued d g x q _ _ _ _ _ _ => exact h.same (occupied_put rfl) fun _ _ => rfl
  case cellGranted p d g r x _ record =>
    have some : (b.usage d g).reserved ≠ 0 := by
      obtain ⟨-, -, -, pos, -⟩ := (grants.covers d g).records p r record
      have le := reserved.le p d g
      rw [record] at le
      exact Nat.ne_of_gt (pos.trans le)
    refine h.put (q := b.queue d g.cls ++ [.cell x]) ?_ rfl rfl
    rw [Usage.fill_eq some, countP_snoc, ← h d g]
    rfl
  case cellLate p d g x _ _ _ =>
    refine h.put (q := b.queue d g.cls ++ [.cell x]) ?_ rfl rfl
    rw [countP_snoc, ← h d g]
    rfl
  case cellLeaves d g x rest head =>
    refine h.put (q := rest) ?_ rfl rfl
    have before := h d g
    rw [head, List.countP_cons_of_pos rfl] at before
    unfold Usage.release
    rw [before]
    rfl
  case cellCredited d x _ _ => exact h.same (fun _ _ => rfl) fun e k => congrArg _ (put_c0_granted b.queue d _ e k)
  case creditLeaves d x rest _ => exact h.same (fun _ _ => rfl) fun e k => congrArg _ (put_c0_granted b.queue d _ e k)
  case cellStored g ds x _ _ _ _ =>
    refine h.same (fun _ _ => rfl) fun e k => ?_
    dsimp only
    rw [List.countP_append]
    split_ifs <;> rfl
  case markPlaced k _ _ => exact h.same (fun _ _ => rfl) fun e j => countP_put_snoc rfl e j.cls
  case refLost d k n rest head _ => exact h.same (fun _ _ => rfl) fun e j => countP_put_tail head rfl e j.cls
  case refLast d k n rest m head _ _ => exact h.same (fun _ _ => rfl) fun e j => countP_put_tail head rfl e j.cls
  case refLeaves d k n rest m head _ _ => exact h.same (fun _ _ => rfl) fun e j => countP_put_tail head rfl e j.cls
  case markLeaves d k src mc rest l head _ => exact h.same (fun _ _ => rfl) fun e j => countP_put_tail head rfl e j.cls
  case markServes d k src mc rest m l head _ _ _ =>
    exact h.same (fun _ _ => rfl) fun e j => (countP_put_snoc rfl e j.cls).trans (countP_put_tail head rfl e j.cls)
  all_goals exact h

theorem Ledger.Entry.reserved (e : Ledger.Entry ex b c) (grants : b.Grants) (h : b.Reserved) : c.Reserved := by
  cases e
  case recordClosed p d g r record =>
    have le := h.le p d g
    refine h.put (p := p) (x := none) ?_ rfl rfl
    rw [record] at le ⊢
    exact Nat.sub_add_cancel le
  case recordCut p d g r n record _ less =>
    have le := h.le p d g
    refine h.put (p := p) (x := some { r with remaining := n }) ?_ rfl rfl
    rw [record] at le ⊢
    change (b.usage d g).reserved - (r.remaining - n) + r.remaining = (b.usage d g).reserved + n
    change r.remaining ≤ _ at le
    omega
  case sourceGone p => exact h.sourceGone rfl rfl
  case grantIssued d g x q _ _ _ _ _ _ =>
    refine h.put (p := x.src) (x := some ⟨remainingOf (b.grant x.src (d, g)) + q, none⟩) ?_ rfl rfl
    change (b.usage d g).reserved + q + _ = (b.usage d g).reserved + (remainingOf (b.grant x.src (d, g)) + q)
    omega
  case grantsSent p n time =>
    refine h.same (fun _ _ => rfl) fun q k => ?_
    by_cases hq : q = p
    · subst hq
      dsimp only
      rw [Function.update_self]
      cases b.grant q k with
      | none => rfl
      | some y =>
        rw [Option.map_some]
        split_ifs <;> rfl
    · dsimp only
      rw [Function.update_of_ne hq]
  case cellGranted p d g r x _ record =>
    obtain ⟨-, -, -, pos, -⟩ := (grants.covers d g).records p r record
    have le := h.le p d g
    rw [record] at le
    change r.remaining ≤ _ at le
    refine h.put (p := p) (x := if r.remaining - 1 = 0 then none else some { r with remaining := r.remaining - 1 }) ?_ rfl rfl
    have left : remainingOf (if r.remaining - 1 = 0 then none else some { r with remaining := r.remaining - 1 }) =
        r.remaining - 1 := by
      split_ifs with last
      · exact last.symm
      · rfl
    rw [left, record, Usage.fill_eq (by omega)]
    change (b.usage d g).reserved - 1 + r.remaining = _
    omega
  case cellLate p d g x _ _ _ => exact h.same (reserved_put rfl) fun _ _ => rfl
  case cellLeaves d g x rest _ => exact h.same (reserved_put rfl) fun _ _ => rfl
  all_goals exact h

end Sys2Proof.Machine
end

section
/-! PROOFS. The accounts of class-0 cells, commands and MARK entries, and every account together (O10). -/

namespace Sys2Proof.Machine

open Function (update)

variable {ex : Did → Prop} {b c : Ledger}

/-! ### Class-0 cells and commands -/

/-- The class-0 cells from port `p`. -/
def Ledger.cellsFrom (b : Ledger) (p : PortId) : Nat :=
  (allDids.map fun d => (b.queue d .c0).countP (QEntry.isFrom p)).sum

/-- The commands from port `p` that wait in the command queue. -/
def Ledger.commandsFrom (b : Ledger) (p : PortId) : Nat := b.cmdQueue.countP fun x => decide (x.src = p)

/-- The credits that a port holds are its class-0 cells and its commands (R45, R155). -/
def Ledger.Holds (b : Ledger) : Prop := ∀ p, b.held p = b.cellsFrom p + b.commandsFrom p

theorem Ledger.Holds.same (h : b.Holds) (held : c.held = b.held)
    (queue : ∀ p d, (c.queue d .c0).countP (QEntry.isFrom p) = (b.queue d .c0).countP (QEntry.isFrom p))
    (commands : c.cmdQueue = b.cmdQueue) : c.Holds := by
  intro p
  unfold Ledger.cellsFrom Ledger.commandsFrom
  rw [held, commands]
  simp only [queue]
  exact h p

/-- The class-0 cells of each port after one class-0 queue was written. -/
theorem Ledger.cellsFrom_put {d : Did} {q : List QEntry} (queue : c.queue = put b.queue d .c0 q) (p : PortId) :
    c.cellsFrom p + (b.queue d .c0).countP (QEntry.isFrom p) = b.cellsFrom p + q.countP (QEntry.isFrom p) := by
  have replaced := sum_replace d (f := fun e => (b.queue e .c0).countP (QEntry.isFrom p))
    (g := fun e => (c.queue e .c0).countP (QEntry.isFrom p)) fun e he => by rw [queue, put_other _ he]
  rw [show c.queue d .c0 = q by rw [queue, put_self]] at replaced
  exact replaced

theorem isFrom_cell (p : PortId) (x : StoredCell) : (QEntry.cell x).isFrom p = true ↔ x.src = p := decide_eq_true_iff

/-- A class-0 cell comes or goes with a credit of its port. -/
theorem Ledger.Holds.cell (h : b.Holds) {d : Did} {x : StoredCell} {q : List QEntry} {n : Nat}
    (own : n + (b.queue d .c0).countP (QEntry.isFrom x.src) = b.held x.src + q.countP (QEntry.isFrom x.src))
    (others : ∀ p, p ≠ x.src → q.countP (QEntry.isFrom p) = (b.queue d .c0).countP (QEntry.isFrom p))
    (held : c.held = update b.held x.src n) (queue : c.queue = put b.queue d .c0 q) (commands : c.cmdQueue = b.cmdQueue) :
    c.Holds := by
  intro p
  have cells := Ledger.cellsFrom_put queue p
  have before := h p
  have waiting : c.commandsFrom p = b.commandsFrom p := by
    unfold Ledger.commandsFrom
    rw [commands]
  rw [held]
  by_cases hp : p = x.src
  · subst hp
    rw [Function.update_self]
    omega
  · rw [Function.update_of_ne hp]
    rw [others p hp] at cells
    omega

/-- A command comes or goes with a credit of its port. -/
theorem Ledger.Holds.command (h : b.Holds) {x : CmdCell} {n : Nat}
    (own : n + b.commandsFrom x.src = b.held x.src + c.commandsFrom x.src)
    (others : ∀ p, p ≠ x.src → c.commandsFrom p = b.commandsFrom p) (held : c.held = update b.held x.src n)
    (queue : c.queue = b.queue) : c.Holds := by
  intro p
  have before := h p
  have cells : c.cellsFrom p = b.cellsFrom p := by
    unfold Ledger.cellsFrom
    rw [queue]
  rw [held]
  by_cases hp : p = x.src
  · subst hp
    rw [Function.update_self]
    omega
  · rw [Function.update_of_ne hp, cells, others p hp]
    exact before

theorem Ledger.Entry.holds (e : Ledger.Entry ex b c) (h : b.Holds) : c.Holds := by
  cases e
  case cellGranted p d g r x _ _ => exact h.same rfl (fun p e => congrArg _ (put_granted_c0 b.queue d g _ e)) rfl
  case cellLate p d g x _ _ _ => exact h.same rfl (fun p e => congrArg _ (put_granted_c0 b.queue d g _ e)) rfl
  case cellLeaves d g x rest _ => exact h.same rfl (fun p e => congrArg _ (put_granted_c0 b.queue d g _ e)) rfl
  case cellCredited d x _ _ =>
    refine h.cell (x := x) (q := b.queue d .c0 ++ [.cell x]) ?_ (fun p hp => ?_) rfl rfl rfl
    · rw [countP_snoc, if_pos ((isFrom_cell _ x).2 rfl)]
      omega
    · rw [countP_snoc, if_neg fun same => hp ((isFrom_cell p x).1 same).symm]
      rfl
  case creditLeaves d x rest head =>
    have held := h x.src
    have cells := Ledger.cellsFrom_put (b := b) (c := { b with queue := put b.queue d .c0 rest }) rfl x.src
    refine h.cell (x := x) (q := rest) (n := b.held x.src - 1) ?_ (fun p hp => ?_) rfl rfl rfl
    · rw [head, List.countP_cons_of_pos ((isFrom_cell _ x).2 rfl)] at cells ⊢
      omega
    · rw [head, List.countP_cons_of_neg fun same => hp ((isFrom_cell p x).1 same).symm]
  case cellStored g ds x _ _ _ _ =>
    refine h.same rfl (fun p d => ?_) rfl
    dsimp only
    rw [if_neg fun same => GClass.cls_ne_c0 g same.2.symm, List.append_nil]
  case markPlaced k _ _ => exact h.same rfl (fun p e => countP_put_snoc rfl e .c0) rfl
  case refLost d k n rest head _ => exact h.same rfl (fun p e => countP_put_tail head rfl e .c0) rfl
  case refLast d k n rest m head _ _ => exact h.same rfl (fun p e => countP_put_tail head rfl e .c0) rfl
  case refLeaves d k n rest m head _ _ => exact h.same rfl (fun p e => countP_put_tail head rfl e .c0) rfl
  case markLeaves d k src mc rest l head _ => exact h.same rfl (fun p e => countP_put_tail head rfl e .c0) rfl
  case markServes d k src mc rest m l head _ _ _ =>
    exact h.same rfl (fun p e => (countP_put_snoc rfl e .c0).trans (countP_put_tail head rfl e .c0)) rfl
  case commandQueued x _ _ =>
    have queued (p : PortId) : (b.cmdQueue ++ [x]).countP (fun y => decide (y.src = p)) =
        b.commandsFrom p + if x.src = p then 1 else 0 := by
      rw [List.countP_append, List.countP_singleton]
      simp only [decide_eq_true_eq]
      rfl
    refine h.command (x := x) ?_ (fun p hp => ?_) rfl rfl
    · change _ = _ + (b.cmdQueue ++ [x]).countP (fun y => decide (y.src = x.src))
      rw [queued, if_pos rfl]
      omega
    · exact (queued p).trans (by rw [if_neg hp.symm]; rfl)
  case commandTaken x rest head =>
    have held := h x.src
    have waiting (p : PortId) : b.commandsFrom p =
        rest.countP (fun y => decide (y.src = p)) + if x.src = p then 1 else 0 := by
      unfold Ledger.commandsFrom
      rw [head, List.countP_cons]
      simp only [decide_eq_true_eq]
    refine h.command (x := x) (n := b.held x.src - 1) ?_ (fun p hp => ?_) rfl rfl
    · change _ = _ + rest.countP (fun y => decide (y.src = x.src))
      have own := waiting x.src
      rw [if_pos rfl] at own
      omega
    · rw [waiting p, if_neg hp.symm]
      rfl
  all_goals exact h

/-! ### MARK entries -/

/-- The MARK entries of a DID. -/
def Ledger.marksOf (b : Ledger) (d : Did) : Nat :=
  (b.queue d .c0).countP QEntry.isMark + (b.queue d .c1).countP QEntry.isMark + (b.queue d .c2).countP QEntry.isMark +
    (b.queue d .c3).countP QEntry.isMark

/-- The marker use is the number of MARK entries (R45, R47). -/
def Ledger.Marks (b : Ledger) : Prop := b.markerUse = (allDids.map b.marksOf).sum

theorem Ledger.Marks.same (h : b.Marks) (use : c.markerUse = b.markerUse)
    (queue : ∀ d k, (c.queue d k).countP QEntry.isMark = (b.queue d k).countP QEntry.isMark) : c.Marks := by
  unfold Ledger.Marks Ledger.marksOf
  simp only [use, queue]
  exact h

/-- One queue is written: the marker use follows its MARK entries. -/
theorem marks_put {d : Did} {k : Cls} {q : List QEntry} (queue : c.queue = put b.queue d k q) :
    (allDids.map c.marksOf).sum + (b.queue d k).countP QEntry.isMark =
      (allDids.map b.marksOf).sum + q.countP QEntry.isMark := by
  have replaced := sum_replace d (f := b.marksOf) (g := c.marksOf) fun e he => by
    unfold Ledger.marksOf
    simp only [queue, put_other _ he]
  have own : c.marksOf d + (b.queue d k).countP QEntry.isMark = b.marksOf d + q.countP QEntry.isMark := by
    unfold Ledger.marksOf
    rw [queue]
    cases k <;> simp only [put_apply, true_and, reduceCtorEq, if_true, if_false] <;> omega
  change (allDids.map c.marksOf).sum + _ = (allDids.map b.marksOf).sum + _ at replaced
  omega

/-- A MARK joins a queue. -/
theorem Ledger.Marks.join (h : b.Marks) {d : Did} {k : Cls} {src : PortId} {mc : Bool}
    (queue : c.queue = put b.queue d k (b.queue d k ++ [.mark src mc])) (use : c.markerUse = b.markerUse + 1) : c.Marks := by
  have total := marks_put queue
  rw [countP_snoc, if_pos (show (QEntry.mark src mc).isMark = true from rfl)] at total
  unfold Ledger.Marks at h ⊢
  omega

/-- A MARK leaves a queue. -/
theorem Ledger.Marks.leave (h : b.Marks) {d : Did} {k : Cls} {src : PortId} {mc : Bool} {rest : List QEntry}
    (head : b.queue d k = .mark src mc :: rest) (queue : c.queue = put b.queue d k rest)
    (use : c.markerUse = b.markerUse - 1) : c.Marks := by
  have total := marks_put queue
  rw [head, List.countP_cons_of_pos (show (QEntry.mark src mc).isMark = true from rfl)] at total
  unfold Ledger.Marks at h ⊢
  omega

theorem Ledger.Entry.marks (e : Ledger.Entry ex b c) (h : b.Marks) : c.Marks := by
  cases e
  case cellGranted p d g r x _ _ => exact h.same rfl (countP_put_snoc rfl)
  case cellLate p d g x _ _ _ => exact h.same rfl (countP_put_snoc rfl)
  case cellCredited d x _ _ => exact h.same rfl (countP_put_snoc rfl)
  case cellLeaves d g x rest head => exact h.same rfl (countP_put_tail head rfl)
  case creditLeaves d x rest head => exact h.same rfl (countP_put_tail head rfl)
  case cellStored g ds x _ _ _ _ =>
    refine h.same rfl fun d k => ?_
    dsimp only
    rw [List.countP_append]
    split_ifs <;> rfl
  case refLost d k n rest head _ => exact h.same rfl (countP_put_tail head rfl)
  case refLast d k n rest m head _ _ => exact h.same rfl (countP_put_tail head rfl)
  case refLeaves d k n rest m head _ _ => exact h.same rfl (countP_put_tail head rfl)
  case markPlaced k _ _ => exact h.join rfl rfl
  case markLeaves d k src mc rest l head _ => exact h.leave head rfl rfl
  case markServes d k src mc rest m l head _ _ _ =>
    have left : Ledger.Marks { b with queue := put b.queue d k rest, markerUse := b.markerUse - 1 } := h.leave head rfl rfl
    exact left.join (d := m.did) (k := m.cls) rfl rfl
  all_goals exact h

/-! ### Every account -/

/-- Grants, element cells, stored multicast cells, references and the four accounts of the buffer. -/
structure Ledger.Counted (b : Ledger) : Prop where
  grants : b.Grants
  elements : b.Elements
  pool : b.Pool
  refs : b.Refs
  occupied : b.Occupied
  reserved : b.Reserved
  holds : b.Holds
  marks : b.Marks

theorem State.accountLaw_iff (s : State) : s.AccountLaw ↔
    s.ledger.Occupied ∧ s.ledger.Reserved ∧ s.ledger.Holds ∧ s.ledger.Marks :=
  ⟨fun ⟨usage, held, marks⟩ => ⟨fun d g => (usage d g).1, fun d g => (usage d g).2, held, marks⟩,
    fun ⟨occupied, reserved, held, marks⟩ => ⟨fun d g => ⟨occupied d g, reserved d g⟩, held, marks⟩⟩

theorem State.counted_iff {s : State} (law : s.SettingsLaw) : s.ledger.Counted ↔
    s.GrantLaw ∧ s.ElementLaw ∧ s.PoolLaw ∧ s.RefLaw ∧ s.AccountLaw := by
  rw [← State.grants_iff law, State.elementLaw_iff, State.poolLaw_iff, State.refLaw_iff, State.accountLaw_iff]
  exact ⟨fun h => ⟨h.grants, h.elements, h.pool, h.refs, h.occupied, h.reserved, h.holds, h.marks⟩,
    fun ⟨grants, elements, pool, refs, occupied, reserved, holds, marks⟩ =>
      ⟨grants, elements, pool, refs, occupied, reserved, holds, marks⟩⟩

/-- Nothing is stored, and nothing is counted. -/
theorem Ledger.Counted.empty (grants : b.Grants) (elements : b.Elements) (pool : b.Pool) (queue : ∀ d k, b.queue d k = [])
    (refs : ∀ d g, b.refs d g = 0) (usage : ∀ d g, b.usage d g = ⟨0, 0⟩) (records : ∀ p k, b.grant p k = none)
    (held : ∀ p, b.held p = 0) (cells : b.mcCells = []) (commands : b.cmdQueue = []) (use : b.markerUse = 0) :
    b.Counted where
  grants := grants
  elements := elements
  pool := pool
  refs := by
    refine ⟨fun d g => ?_, fun d => ?_, fun d k n hn => ?_, fun m hm => ?_⟩
    · rw [refs, queue]; rfl
    · rw [queue]; rfl
    · rw [queue] at hn
      cases hn
    · rw [cells] at hm
      cases hm
  occupied d g := by
    rw [usage, queue]
    rfl
  reserved d g := by
    simp [usage, records, remainingOf]
  holds p := by
    simp [held, Ledger.cellsFrom, Ledger.commandsFrom, queue, commands]
  marks := by
    have none (d : Did) : b.marksOf d = 0 := by simp [Ledger.marksOf, queue]
    unfold Ledger.Marks
    rw [use]
    exact (List.sum_eq_zero fun n hn => by
      obtain ⟨d, -, rfl⟩ := List.mem_map.1 hn
      exact none d).symm

theorem Ledger.Counted.lasting : Ledger.Lasting Ledger.Counted where
  entry _ _ _ e h := ⟨e.grants h.grants, e.elements h.elements, e.pool h.pool, e.refs h.pool h.refs,
    e.occupied h.grants h.reserved h.occupied, e.reserved h.grants h.reserved, e.holds h.holds, e.marks h.marks⟩
  classes b cmd h := { h with
    grants := Ledger.Grants.lasting.classes b cmd h.grants, pool := Ledger.Pool.lasting.classes b cmd h.pool
    refs := { h.refs with } }
  pool s cmd fits room h := by
    have grants := Ledger.Grants.lasting.pool s cmd fits room h.grants
    have pool := Ledger.Pool.lasting.pool s cmd fits room h.pool
    rw [s.applyPoolSet_ledger] at grants pool ⊢
    exact { h with grants := grants, pool := pool, refs := { h.refs with } }
  emptied s h := by
    have grants := Ledger.Grants.lasting.emptied s h.grants
    have elements := Ledger.Elements.lasting.emptied s h.elements
    have pool := Ledger.Pool.lasting.emptied s h.pool
    rw [s.emptied_ledger] at grants elements pool ⊢
    exact .empty grants elements pool (fun _ _ => rfl) (fun _ _ => rfl) (fun _ _ => rfl) (fun _ _ => rfl) (fun _ => rfl)
      rfl rfl rfl
  reset := by
    obtain ⟨-, elements, -, pool, -, settings, -, -, -, grants, refs, accounts, -⟩ := resetMeetsEveryLaw
    exact (State.counted_iff settings).2 ⟨grants, elements, pool, refs, accounts⟩

/-- Settles O10: each account is an invariant of the entries of the books, given the laws of grants and of the pool. -/
theorem everyStoreIsCounted : Obligations.EveryStoreIsCounted := by
  rintro s t ⟨settings, down, grants, elements, pool, refs, accounts⟩ h
  have after := settingsLaw_kept s t settings h
  have counted := Ledger.Counted.lasting.kept s t ((State.counted_iff settings).2 ⟨grants, elements, pool, refs, accounts⟩) h
  exact ⟨after, downs_kept s t down h, (State.counted_iff after).1 counted⟩

end Sys2Proof.Machine
end
